-- ==== Sys2Proof/Word.lean ====
section
/-! DEFINITION. The plain value types of the Fuel VM: register words, bytes, code addresses,
instruction patterns and slots. The widths are the parameters of spec/00_scope.md R2. -/

namespace Sys2Proof

/-- A register word: `XLEN = 256` bits (R2, R10). -/
abbrev Word := BitVec 256

/-- A byte of data memory, of call data, of return data or of code (R40). -/
abbrev Byte := BitVec 8

/-- A code address: `AW = 32` bits (R2, R12). -/
abbrev CodeAddr := BitVec 32

/-- An instruction pattern: `IBITS = 44` bits (R60). -/
abbrev Pattern := BitVec 44

/-- One of the six slots of a pattern: `SLOT = 6` bits (R60). -/
abbrev Slot := BitVec 6

/-- The number of a general register, 0 to 63 (R10). -/
abbrev Reg := Fin 64

/-- Data memory as plain data: the bytes whose value is not the one an unlisted address reads as, by
rising address (R40; `Memory.wf` in Machine/Ops.lean is the canonical form). -/
abbrev Memory := List Host.Cell

/-- A finite table from a number to a value: how the model writes the maps of the launch record as
plain data. The first entry for a key is the one that counts. -/
abbrev Table (α : Type) := List (Nat × α)

end Sys2Proof
end

