-- ==== Sys2Proof/Syntax.lean ====
section
/-! DEFINITION. The instructions: one constructor for each of the 127 rows of spec/opcode_table.json, in the
table's order, its operands in slot order (30_encoding.md R62, R66). An operand's type holds exactly the
values its field can encode: a register slot is a number 0 to 63, an immediate has the width of R63. The
constructor `ret` is the row RETURN (`return` is a word of Lean). -/

namespace Sys2Proof

/-- An instruction of the Fuel VM (R1, R66). -/
inductive Instr where
  -- Arithmetic/Logic (ALU)
  /-- STOP, opcode 0x00, format N, 42_alu_control.md R141: `stop`. -/
  | stop
  /-- ADD, opcode 0x01, format R3, 40_alu_arith.md R101: `add $rd, $rs, $rt`. -/
  | add (rd rs rt : Reg)
  /-- ADDI, opcode 0x02, format I2, 40_alu_arith.md R102: `addi $rt, $rs, immediate`. -/
  | addi (rs rt : Reg) (imm : BitVec 24)
  /-- ADDIU, opcode 0x03, format I2, 40_alu_arith.md R103: `addiu $rt, $rs, immediate`. -/
  | addiu (rs rt : Reg) (imm : BitVec 24)
  /-- ADDU, opcode 0x04, format R3, 40_alu_arith.md R104: `addu $rd, $rs, $rt`. -/
  | addu (rd rs rt : Reg)
  /-- AND, opcode 0x05, format R3, 41_alu_logic_shift_compare.md R121: `and $rd, $rs, $rt`. -/
  | and (rd rs rt : Reg)
  /-- ANDI, opcode 0x06, format I2, 41_alu_logic_shift_compare.md R122: `andi $rd, $rs, imm`. -/
  | andi (rd rs : Reg) (imm : BitVec 24)
  /-- BEQ, opcode 0x07, format I2, 42_alu_control.md R142: `beq $rs, $rt, offset`. -/
  | beq (rs rt : Reg) (off : BitVec 24)
  /-- BGEZ, opcode 0x08, format I1, 42_alu_control.md R143: `bgez $rs, offset`. -/
  | bgez (rs : Reg) (off : BitVec 24)
  /-- BGEZAL, opcode 0x09, format I1, 42_alu_control.md R144: `bgezal $rs, offset`. -/
  | bgezal (rs : Reg) (off : BitVec 24)
  /-- BGTZ, opcode 0x0A, format I1, 42_alu_control.md R145: `bgtz $rs, offset`. -/
  | bgtz (rs : Reg) (off : BitVec 24)
  /-- BLEZ, opcode 0x0B, format I1, 42_alu_control.md R146: `blez $rs, offset`. -/
  | blez (rs : Reg) (off : BitVec 24)
  /-- BLTZ, opcode 0x0C, format I1, 42_alu_control.md R147: `bltz $rs, offset`. -/
  | bltz (rs : Reg) (off : BitVec 24)
  /-- BLTZAL, opcode 0x0D, format I1, 42_alu_control.md R148: `bltzal $rs, offset`. -/
  | bltzal (rs : Reg) (off : BitVec 24)
  /-- BNE, opcode 0x0E, format I2, 42_alu_control.md R149: `bne $rs, $rt, offset`. -/
  | bne (rs rt : Reg) (off : BitVec 24)
  /-- DIV, opcode 0x0F, format R2, 40_alu_arith.md R105: `div $rs, $rt`. -/
  | div (rs rt : Reg)
  /-- DIVU, opcode 0x10, format R2, 40_alu_arith.md R106: `divu $rs, $rt`. -/
  | divu (rs rt : Reg)
  /-- J, opcode 0x11, format J, 42_alu_control.md R150: `j target`. -/
  | j (target : BitVec 36)
  /-- JAL, opcode 0x12, format J, 42_alu_control.md R151: `jal target`. -/
  | jal (target : BitVec 36)
  /-- JR, opcode 0x13, format R1, 42_alu_control.md R153: `jr $rs`. -/
  | jr (rs : Reg)
  /-- LB, opcode 0x14, format I2, 43_alu_loadstore.md R161: `lb $rd, offset($rs)`. -/
  | lb (rd rs : Reg) (off : BitVec 24)
  /-- LUI, opcode 0x15, format I1, 41_alu_logic_shift_compare.md R123: `lui $rd, imm`. -/
  | lui (rd : Reg) (imm : BitVec 24)
  /-- LW, opcode 0x16, format I2, 43_alu_loadstore.md R162: `lw $rd, offset($rs)`. -/
  | lw (rd rs : Reg) (off : BitVec 24)
  /-- MFHI, opcode 0x17, format R1, 40_alu_arith.md R107: `mfhi $rd`. -/
  | mfhi (rd : Reg)
  /-- MFLO, opcode 0x18, format R1, 40_alu_arith.md R108: `mflo $rd`. -/
  | mflo (rd : Reg)
  /-- MULT, opcode 0x19, format R3, 40_alu_arith.md R109: `mult $rd, $rs, $rt`. -/
  | mult (rd rs rt : Reg)
  /-- MULTU, opcode 0x1A, format R3, 40_alu_arith.md R110: `multu $rd, $rs, $rt`. -/
  | multu (rd rs rt : Reg)
  /-- NOOP, opcode 0x1B, format N, 42_alu_control.md R154: `noop`. -/
  | noop
  /-- OR, opcode 0x1C, format R3, 41_alu_logic_shift_compare.md R124: `or $rd, $rs, $rt`. -/
  | or (rd rs rt : Reg)
  /-- ORI, opcode 0x1D, format I2, 41_alu_logic_shift_compare.md R125: `ori $rd, $rs, imm`. -/
  | ori (rd rs : Reg) (imm : BitVec 24)
  /-- SB, opcode 0x1E, format I2, 43_alu_loadstore.md R163: `sb $rt, offset($rs)`. -/
  | sb (rs rt : Reg) (off : BitVec 24)
  /-- SLL, opcode 0x1F, format I2, 41_alu_logic_shift_compare.md R126: `sll $rd, $rs, imm`. -/
  | sll (rd rs : Reg) (imm : BitVec 24)
  /-- SLLV, opcode 0x20, format R3, 41_alu_logic_shift_compare.md R127: `sllv $rd, $rs, $rt`. -/
  | sllv (rd rs rt : Reg)
  /-- SLT, opcode 0x21, format R3, 41_alu_logic_shift_compare.md R128: `slt $rd, $rs, $rt`. -/
  | slt (rd rs rt : Reg)
  /-- SLTI, opcode 0x22, format I2, 41_alu_logic_shift_compare.md R129: `slti $rd, $rs, imm`. -/
  | slti (rd rs : Reg) (imm : BitVec 24)
  /-- SLTIU, opcode 0x23, format I2, 41_alu_logic_shift_compare.md R130: `sltiu $rd, $rs, imm`. -/
  | sltiu (rd rs : Reg) (imm : BitVec 24)
  /-- SLTU, opcode 0x24, format R3, 41_alu_logic_shift_compare.md R131: `sltu $rd, $rs, $rt`. -/
  | sltu (rd rs rt : Reg)
  /-- SRA, opcode 0x25, format I2, 41_alu_logic_shift_compare.md R132: `sra $rd, $rs, imm`. -/
  | sra (rd rs : Reg) (imm : BitVec 24)
  /-- SRL, opcode 0x26, format I2, 41_alu_logic_shift_compare.md R133: `srl $rd, $rs, imm`. -/
  | srl (rd rs : Reg) (imm : BitVec 24)
  /-- SRLV, opcode 0x27, format R3, 41_alu_logic_shift_compare.md R134: `srlv $rd, $rs, $rt`. -/
  | srlv (rd rs rt : Reg)
  /-- SRAV, opcode 0x28, format R3, 41_alu_logic_shift_compare.md R135: `srav $rd, $rs, $rt`. -/
  | srav (rd rs rt : Reg)
  /-- SUB, opcode 0x29, format R3, 40_alu_arith.md R111: `sub $rd, $rs, $rt`. -/
  | sub (rd rs rt : Reg)
  /-- SUBU, opcode 0x2A, format R3, 40_alu_arith.md R112: `subu $rd, $rs, $rt`. -/
  | subu (rd rs rt : Reg)
  /-- SW, opcode 0x2B, format I2, 43_alu_loadstore.md R164: `sw $rt, offset($rs)`. -/
  | sw (rs rt : Reg) (off : BitVec 24)
  /-- SYSCALL, opcode 0x2C, format N, 42_alu_control.md R155: `syscall`. -/
  | syscall
  /-- XOR, opcode 0x2D, format R3, 41_alu_logic_shift_compare.md R136: `xor $rd, $rs, $rt`. -/
  | xor (rd rs rt : Reg)
  /-- XORI, opcode 0x2E, format I2, 41_alu_logic_shift_compare.md R137: `xori $rt, $rs, imm`. -/
  | xori (rs rt : Reg) (imm : BitVec 24)
  /-- MOD, opcode 0x2F, format R3, 44_alu_evm_arith.md R171: `mod $rd, $rs, $rt`. -/
  | mod (rd rs rt : Reg)
  /-- SMOD, opcode 0x30, format R3, 44_alu_evm_arith.md R172: `smod $rd, $rs, $rt`. -/
  | smod (rd rs rt : Reg)
  /-- ADDMOD, opcode 0x31, format R4, 44_alu_evm_arith.md R173: `addmod $rd, $rs, $rt, $ru`. -/
  | addmod (rd rs rt ru : Reg)
  /-- MULMOD, opcode 0x32, format R4, 44_alu_evm_arith.md R174: `mulmod $rd, $rs, $rt, $ru`. -/
  | mulmod (rd rs rt ru : Reg)
  /-- EXP, opcode 0x33, format R3, 44_alu_evm_arith.md R175: `exp $rd, $rs, $rt`. -/
  | exp (rd rs rt : Reg)
  /-- MODI, opcode 0x34, format I2, 44_alu_evm_arith.md R176: `modi $rd, $rs, imm`. -/
  | modi (rd rs : Reg) (imm : BitVec 24)
  /-- SMODI, opcode 0x35, format I2, 44_alu_evm_arith.md R177: `smodi $rd, $rs, imm`. -/
  | smodi (rd rs : Reg) (imm : BitVec 24)
  /-- EXPI, opcode 0x36, format I2, 44_alu_evm_arith.md R178: `expi $rd, $rs, imm`. -/
  | expi (rd rs : Reg) (imm : BitVec 24)
  -- Ethereum
  /-- GAS, opcode 0x80, format R1, 45_ethereum_env.md R181: `gas $rd`. -/
  | gas (rd : Reg)
  /-- BALANCE, opcode 0x81, format R2, 45_ethereum_env.md R184: `balance $rd, $rs`. -/
  | balance (rd rs : Reg)
  /-- ADDRESS, opcode 0x82, format R1, 45_ethereum_env.md R185: `address $rd`. -/
  | address (rd : Reg)
  /-- ORIGIN, opcode 0x83, format R1, 45_ethereum_env.md R186: `origin $rd`. -/
  | origin (rd : Reg)
  /-- CALLER, opcode 0x84, format R1, 45_ethereum_env.md R187: `caller $rd`. -/
  | caller (rd : Reg)
  /-- CALLVALUE, opcode 0x85, format R1, 45_ethereum_env.md R188: `callvalue $rd`. -/
  | callvalue (rd : Reg)
  /-- BLOCKHASH, opcode 0x86, format R2, 45_ethereum_env.md R189: `blockhash $rd, $rs`. -/
  | blockhash (rd rs : Reg)
  /-- COINBASE, opcode 0x87, format R1, 45_ethereum_env.md R190: `coinbase $rd`. -/
  | coinbase (rd : Reg)
  /-- TIMESTAMP, opcode 0x88, format R1, 45_ethereum_env.md R191: `timestamp $rd`. -/
  | timestamp (rd : Reg)
  /-- NUMBER, opcode 0x89, format R1, 45_ethereum_env.md R192: `number $rd`. -/
  | number (rd : Reg)
  /-- DIFFICULTY, opcode 0x8A, format R1, 45_ethereum_env.md R193: `difficulty $rd`. -/
  | difficulty (rd : Reg)
  /-- GASLIMIT, opcode 0x8B, format R1, 45_ethereum_env.md R182: `gaslimit $rd`. -/
  | gaslimit (rd : Reg)
  /-- GASPRICE, opcode 0x8C, format R1, 45_ethereum_env.md R183: `gasprice $rd`. -/
  | gasprice (rd : Reg)
  /-- CALLDATASIZE, opcode 0x8D, format R1, 45_ethereum_env.md R194: `calldatasize $rd`. -/
  | calldatasize (rd : Reg)
  /-- CALLDATALOAD, opcode 0x8E, format R2, 45_ethereum_env.md R195: `calldataload $rd, $rs`. -/
  | calldataload (rd rs : Reg)
  /-- CALLDATACOPY, opcode 0x8F, format R3, 45_ethereum_env.md R196: `calldatacopy $rd, $rs, $rt`. -/
  | calldatacopy (rd rs rt : Reg)
  /-- CODESIZE, opcode 0x90, format R1, 45_ethereum_env.md R197: `codesize $rd`. -/
  | codesize (rd : Reg)
  /-- CODECOPY, opcode 0x91, format R3, 45_ethereum_env.md R198: `codecopy $rd, $rs, $rt`. -/
  | codecopy (rd rs rt : Reg)
  /-- EXTCODESIZE, opcode 0x92, format R2, 45_ethereum_env.md R199: `extcodesize $rd, $rs`. -/
  | extcodesize (rd rs : Reg)
  /-- EXTCODEHASH, opcode 0x93, format R2, 45_ethereum_env.md R200: `extcodehash $rd, $rs`. -/
  | extcodehash (rd rs : Reg)
  /-- EXTCODECOPY, opcode 0x94, format R4, 45_ethereum_env.md R201: `extcodecopy $rd, $ru, $rs, $rt`. -/
  | extcodecopy (rd rs rt ru : Reg)
  /-- RETURNDATASIZE, opcode 0x95, format R1, 45_ethereum_env.md R202: `returndatasize $rd`. -/
  | returndatasize (rd : Reg)
  /-- RETURNDATACOPY, opcode 0x96, format R3, 45_ethereum_env.md R203: `returndatacopy $rd, $rs, $rt`. -/
  | returndatacopy (rd rs rt : Reg)
  /-- CALL, opcode 0x97, format R2, 46_ethereum_calls_logs.md R211: `call $rd, $rs`. -/
  | call (rd rs : Reg)
  /-- CALLCODE, opcode 0x98, format R2, 46_ethereum_calls_logs.md R212: `callcode $rd, $rs`. -/
  | callcode (rd rs : Reg)
  /-- DELEGATECALL, opcode 0x99, format R2, 46_ethereum_calls_logs.md R213: `delegatecall $rd, $rs`. -/
  | delegatecall (rd rs : Reg)
  /-- STATICCALL, opcode 0x9A, format R2, 46_ethereum_calls_logs.md R214: `staticcall $rd, $rs`. -/
  | staticcall (rd rs : Reg)
  /-- RETURN, opcode 0x9B, format R2, 46_ethereum_calls_logs.md R215: `return $rs, $rt`. -/
  | ret (rs rt : Reg)
  /-- CREATE2, opcode 0x9C, format R5, 46_ethereum_calls_logs.md R216: `create2 $rd, $rs, $rt, $ru, $rv`. -/
  | create2 (rd rs rt ru rv : Reg)
  /-- REVERT, opcode 0x9D, format R2, 46_ethereum_calls_logs.md R217: `revert $rs, $rt`. -/
  | revert (rs rt : Reg)
  /-- KECCAK, opcode 0x9E, format R3, 46_ethereum_calls_logs.md R218: `keccak $rd, $rs, $rt`. -/
  | keccak (rd rs rt : Reg)
  /-- LOG0, opcode 0x9F, format R2, 46_ethereum_calls_logs.md R220: `log0 $rs, $rt`. -/
  | log0 (rs rt : Reg)
  /-- LOG1, opcode 0xA0, format R3, 46_ethereum_calls_logs.md R221: `log1 $rs, $rt, $ru`. -/
  | log1 (rs rt ru : Reg)
  /-- LOG2, opcode 0xA1, format R4, 46_ethereum_calls_logs.md R222: `log2 $rs, $rt, $ru, $rv`. -/
  | log2 (rs rt ru rv : Reg)
  /-- LOG3, opcode 0xA2, format R5, 46_ethereum_calls_logs.md R223: `log3 $rs, $rt, $ru, $rv, $rw`. -/
  | log3 (rs rt ru rv rw : Reg)
  /-- LOG4, opcode 0xA3, format R6, 46_ethereum_calls_logs.md R224: `log4 $rs, $rt, $ru, $rv, $rw, $rx`. -/
  | log4 (rs rt ru rv rw rx : Reg)
  -- EIP-615: Subroutines and Static Jumps
  /-- JUMPTO, opcode 0xAA, format I0, 47_eip615_subroutines.md R231: `jumpto imm`. -/
  | jumpto (imm : BitVec 24)
  /-- JUMPIF, opcode 0xAB, format I0, 47_eip615_subroutines.md R232: `jumpif imm`. -/
  | jumpif (imm : BitVec 24)
  /-- JUMPV, opcode 0xAC, format V, 47_eip615_subroutines.md R233: `jumpv n, v_data_offset, $rs`. -/
  | jumpv (rs : Reg) (n : Slot) (off : BitVec 24)
  /-- JUMPSUB, opcode 0xAD, format I0, 47_eip615_subroutines.md R234: `jumpsub imm`. -/
  | jumpsub (imm : BitVec 24)
  /-- JUMPSUBV, opcode 0xAE, format V, 47_eip615_subroutines.md R235: `jumpsubv n, v_data_offset, $rs`. -/
  | jumpsubv (rs : Reg) (n : Slot) (off : BitVec 24)
  /-- RETURNSUB, opcode 0xAF, format N, 47_eip615_subroutines.md R236: `returnsub`. -/
  | returnsub
  /-- GETLOCAL, opcode 0xB0, format I1, 47_eip615_subroutines.md R237: `getlocal $rd, n`. -/
  | getlocal (rd : Reg) (off : BitVec 24)
  /-- PUTLOCAL, opcode 0xB1, format I1, 47_eip615_subroutines.md R238: `putlocal $rs, n`. -/
  | putlocal (rs : Reg) (off : BitVec 24)
  /-- BEGINSUB, opcode 0xB2, format S, 47_eip615_subroutines.md R239: `beginsub n_args, n_returns`. -/
  | beginsub (args returns : Slot)
  /-- BEGINDATA, opcode 0xB3, format N, 47_eip615_subroutines.md R240: `begindata`. -/
  | begindata
  -- EIP-616: SIMD Operations
  /-- SIMDADD, opcode 0xB4, format C, 48_eip616_simd.md R252: `simdadd $rd, $rs, $rt`. -/
  | simdadd (ctx : Slot) (rd rs rt : Reg)
  /-- SIMDMUL, opcode 0xB5, format C, 48_eip616_simd.md R253: `simdmul $rd, $rs, $rt`. -/
  | simdmul (ctx : Slot) (rd rs rt : Reg)
  /-- SIMDSUB, opcode 0xB6, format C, 48_eip616_simd.md R254: `simdsub $rd, $rs, $rt`. -/
  | simdsub (ctx : Slot) (rd rs rt : Reg)
  /-- SIMDDIV, opcode 0xB7, format C, 48_eip616_simd.md R255: `simddiv $rd, $rs, $rt`. -/
  | simddiv (ctx : Slot) (rd rs rt : Reg)
  /-- SIMDSDIV, opcode 0xB8, format C, 48_eip616_simd.md R256: `simdsdiv $rd, $rs, $rt`. -/
  | simdsdiv (ctx : Slot) (rd rs rt : Reg)
  /-- SIMDMOD, opcode 0xB9, format C, 48_eip616_simd.md R257: `simdmod $rd, $rs, $rt`. -/
  | simdmod (ctx : Slot) (rd rs rt : Reg)
  /-- SIMDSMOD, opcode 0xBA, format C, 48_eip616_simd.md R258: `simdsmod $rd, $rs, $rt`. -/
  | simdsmod (ctx : Slot) (rd rs rt : Reg)
  /-- SIMDLT, opcode 0xBB, format C, 48_eip616_simd.md R259: `simdlt $rd, $rs, $rt`. -/
  | simdlt (ctx : Slot) (rd rs rt : Reg)
  /-- SIMDGT, opcode 0xBC, format C, 48_eip616_simd.md R260: `simdgt $rd, $rs, $rt`. -/
  | simdgt (ctx : Slot) (rd rs rt : Reg)
  /-- SIMDSLT, opcode 0xBD, format C, 48_eip616_simd.md R261: `simdslt $rd, $rs, $rt`. -/
  | simdslt (ctx : Slot) (rd rs rt : Reg)
  /-- SIMDSGT, opcode 0xBE, format C, 48_eip616_simd.md R262: `simdsgt $rd, $rs, $rt`. -/
  | simdsgt (ctx : Slot) (rd rs rt : Reg)
  /-- SIMDEQ, opcode 0xBF, format C, 48_eip616_simd.md R263: `simdeq $rd, $rs, $rt`. -/
  | simdeq (ctx : Slot) (rd rs rt : Reg)
  /-- SIMDISZERO, opcode 0xC0, format C, 48_eip616_simd.md R264: `simdiszero $rd, $rs, $rt`. -/
  | simdiszero (ctx : Slot) (rd rs rt : Reg)
  /-- SIMDAND, opcode 0xC1, format C, 48_eip616_simd.md R265: `simdand $rd, $rs, $rt`. -/
  | simdand (ctx : Slot) (rd rs rt : Reg)
  /-- SIMDOR, opcode 0xC2, format C, 48_eip616_simd.md R266: `simdor $rd, $rs, $rt`. -/
  | simdor (ctx : Slot) (rd rs rt : Reg)
  /-- SIMDXOR, opcode 0xC3, format C, 48_eip616_simd.md R267: `simdxor $rd, $rs, $rt`. -/
  | simdxor (ctx : Slot) (rd rs rt : Reg)
  /-- SIMDNOT, opcode 0xC4, format C, 48_eip616_simd.md R268: `simdnot $rd, $rs, $rt`. -/
  | simdnot (ctx : Slot) (rd rs rt : Reg)
  /-- SIMDSHL, opcode 0xC5, format C, 48_eip616_simd.md R269: `simdshl $rd, $rs, $rt`. -/
  | simdshl (ctx : Slot) (rd rs rt : Reg)
  /-- SIMDSHR, opcode 0xC6, format C, 48_eip616_simd.md R270: `simdshr $rd, $rs, $rt`. -/
  | simdshr (ctx : Slot) (rd rs rt : Reg)
  /-- SIMDSAR, opcode 0xC7, format C, 48_eip616_simd.md R271: `simdsar $rd, $rs, $rt`. -/
  | simdsar (ctx : Slot) (rd rs rt : Reg)
  /-- SIMDROL, opcode 0xC8, format C, 48_eip616_simd.md R272: `simdrol $rd, $rs, $rt`. -/
  | simdrol (ctx : Slot) (rd rs rt : Reg)
  /-- SIMDROR, opcode 0xC9, format C, 48_eip616_simd.md R273: `simdror $rd, $rs, $rt`. -/
  | simdror (ctx : Slot) (rd rs rt : Reg)
  /-- SIMDINDEX, opcode 0xCA, format CX, 48_eip616_simd.md R274: `simdindex $rd, $rs, imm`. -/
  | simdindex (ctx : Slot) (rd rs : Reg) (idx : Slot)
  /-- SIMDSHUFFLE, opcode 0xCC, format C, 48_eip616_simd.md R275: `simdshuffle $rd, $rs, $rt`. -/
  | simdshuffle (ctx : Slot) (rd rs rt : Reg)
  -- MAST Proof mechanisms
  /-- CHECKPROOF, opcode 0xCD, format P, 49_mast_covenants.md R280: `checkproof $rd, n, $rs, index, $rt`. -/
  | checkproof (rd rs rt : Reg) (n index : BitVec 3)
  -- Covenants
  /-- CHECKTEMPLATE, opcode 0xCE, format T, 49_mast_covenants.md R281: `checktemplate $rd, $rs, imm, $rt`. -/
  | checktemplate (rd rs rt : Reg) (imm : BitVec 18)
  deriving DecidableEq, Repr

end Sys2Proof
end

