-- ==== Sys2Proof/Decode.lean ====
section
/-! DEFINITION. Decoding a 44-bit pattern (30_encoding.md R60 to R68), and the encoder written from the same
templates. The code space holds patterns and has no byte layout (20_memory.md R47), so decoding starts from a
pattern. -/

namespace Sys2Proof

/-- Why a pattern is no instruction. -/
inductive DecodeError where
  /-- The opcode is one of the 129 values with no instruction (R67): the step raises IllegalInstruction. -/
  | unassignedOpcode
  /-- The opcode is assigned and a slot the template does not use is not zero (R68): a model refuses it. -/
  | reservedSlots
  deriving DecidableEq, Repr

/-! The fields of a pattern (R61, R63). -/

/-- Bits 43:36. -/
def opcodeOf (w : Pattern) : BitVec 8 := w.extractLsb' 36 8

/-- Bits 35:30. -/
def slot1 (w : Pattern) : Slot := w.extractLsb' 30 6

/-- Bits 29:24. -/
def slot2 (w : Pattern) : Slot := w.extractLsb' 24 6

/-- Bits 23:18. -/
def slot3 (w : Pattern) : Slot := w.extractLsb' 18 6

/-- Bits 17:12. -/
def slot4 (w : Pattern) : Slot := w.extractLsb' 12 6

/-- Bits 11:6. -/
def slot5 (w : Pattern) : Slot := w.extractLsb' 6 6

/-- Bits 5:0. -/
def slot6 (w : Pattern) : Slot := w.extractLsb' 0 6

/-- `imm24 = w[23:0]`, slots 3 to 6. -/
def imm24Of (w : Pattern) : BitVec 24 := w.extractLsb' 0 24

/-- `imm36 = w[35:0]`, slots 1 to 6. -/
def imm36Of (w : Pattern) : BitVec 36 := w.extractLsb' 0 36

/-- `imm18 = w[17:0]`, slots 4 to 6. -/
def imm18Of (w : Pattern) : BitVec 18 := w.extractLsb' 0 18

/-- The `n` of CHECKPROOF, bits 17:15. -/
def proofCountOf (w : Pattern) : BitVec 3 := w.extractLsb' 15 3

/-- The `index` of CHECKPROOF, bits 14:12. -/
def proofIndexOf (w : Pattern) : BitVec 3 := w.extractLsb' 12 3

/-- The register a slot names (R10). -/
def regOf (s : Slot) : Reg := s.toFin

/-- The slot that names a register. -/
def slotOf (r : Reg) : Slot := BitVec.ofFin r

/-- The pattern with this opcode and these six slots (R61). -/
def pack (op : BitVec 8) (s1 s2 s3 s4 s5 s6 : Slot) : Pattern :=
  op ++ s1 ++ s2 ++ s3 ++ s4 ++ s5 ++ s6

/-- The pattern whose slots 3 to 6 are one 24-bit immediate (R63). -/
def packImm24 (op : BitVec 8) (s1 s2 : Slot) (imm : BitVec 24) : Pattern :=
  op ++ s1 ++ s2 ++ imm

/-- The pattern whose six slots are one 36-bit immediate (R63). -/
def packImm36 (op : BitVec 8) (imm : BitVec 36) : Pattern := op ++ imm

/-- The pattern whose slots 4 to 6 are one 18-bit immediate (R63). -/
def packImm18 (op : BitVec 8) (s1 s2 s3 : Slot) (imm : BitVec 18) : Pattern :=
  op ++ s1 ++ s2 ++ s3 ++ imm

/-- The instruction `i`, unless an unused slot is not zero (R68). -/
def unlessReserved (unusedAreZero : Bool) (i : Instr) : Except DecodeError Instr :=
  if unusedAreZero then .ok i else .error .reservedSlots

/-! One reader for each format of R62: which slots are operands and which must be zero. -/

def formatN (w : Pattern) (i : Instr) : Except DecodeError Instr :=
  unlessReserved (imm36Of w == 0) i

def formatR1 (w : Pattern) (k : Reg → Instr) : Except DecodeError Instr :=
  unlessReserved (slot2 w == 0 && imm24Of w == 0) (k (regOf (slot1 w)))

def formatR2 (w : Pattern) (k : Reg → Reg → Instr) : Except DecodeError Instr :=
  unlessReserved (imm24Of w == 0) (k (regOf (slot1 w)) (regOf (slot2 w)))

def formatR3 (w : Pattern) (k : Reg → Reg → Reg → Instr) : Except DecodeError Instr :=
  unlessReserved (imm18Of w == 0) (k (regOf (slot1 w)) (regOf (slot2 w)) (regOf (slot3 w)))

def formatR4 (w : Pattern) (k : Reg → Reg → Reg → Reg → Instr) : Except DecodeError Instr :=
  unlessReserved (slot5 w == 0 && slot6 w == 0)
    (k (regOf (slot1 w)) (regOf (slot2 w)) (regOf (slot3 w)) (regOf (slot4 w)))

def formatR5 (w : Pattern) (k : Reg → Reg → Reg → Reg → Reg → Instr) : Except DecodeError Instr :=
  unlessReserved (slot6 w == 0)
    (k (regOf (slot1 w)) (regOf (slot2 w)) (regOf (slot3 w)) (regOf (slot4 w)) (regOf (slot5 w)))

def formatR6 (w : Pattern) (k : Reg → Reg → Reg → Reg → Reg → Reg → Instr) :
    Except DecodeError Instr :=
  .ok (k (regOf (slot1 w)) (regOf (slot2 w)) (regOf (slot3 w)) (regOf (slot4 w)) (regOf (slot5 w))
    (regOf (slot6 w)))

def formatI2 (w : Pattern) (k : Reg → Reg → BitVec 24 → Instr) : Except DecodeError Instr :=
  .ok (k (regOf (slot1 w)) (regOf (slot2 w)) (imm24Of w))

def formatI1 (w : Pattern) (k : Reg → BitVec 24 → Instr) : Except DecodeError Instr :=
  unlessReserved (slot2 w == 0) (k (regOf (slot1 w)) (imm24Of w))

def formatI0 (w : Pattern) (k : BitVec 24 → Instr) : Except DecodeError Instr :=
  unlessReserved (slot1 w == 0 && slot2 w == 0) (k (imm24Of w))

def formatJ (w : Pattern) (k : BitVec 36 → Instr) : Except DecodeError Instr :=
  .ok (k (imm36Of w))

def formatV (w : Pattern) (k : Reg → Slot → BitVec 24 → Instr) : Except DecodeError Instr :=
  .ok (k (regOf (slot1 w)) (slot2 w) (imm24Of w))

def formatS (w : Pattern) (k : Slot → Slot → Instr) : Except DecodeError Instr :=
  unlessReserved (slot1 w == 0 && slot2 w == 0 && slot3 w == 0 && slot4 w == 0)
    (k (slot5 w) (slot6 w))

def formatC (w : Pattern) (k : Slot → Reg → Reg → Reg → Instr) : Except DecodeError Instr :=
  unlessReserved (slot5 w == 0 && slot6 w == 0)
    (k (slot1 w) (regOf (slot2 w)) (regOf (slot3 w)) (regOf (slot4 w)))

def formatCX (w : Pattern) (k : Slot → Reg → Reg → Slot → Instr) : Except DecodeError Instr :=
  unlessReserved (slot5 w == 0 && slot6 w == 0)
    (k (slot1 w) (regOf (slot2 w)) (regOf (slot3 w)) (slot4 w))

def formatP (w : Pattern) (k : Reg → Reg → Reg → BitVec 3 → BitVec 3 → Instr) :
    Except DecodeError Instr :=
  unlessReserved (slot5 w == 0 && slot6 w == 0)
    (k (regOf (slot1 w)) (regOf (slot2 w)) (regOf (slot3 w)) (proofCountOf w) (proofIndexOf w))

def formatT (w : Pattern) (k : Reg → Reg → Reg → BitVec 18 → Instr) : Except DecodeError Instr :=
  .ok (k (regOf (slot1 w)) (regOf (slot2 w)) (regOf (slot3 w)) (imm18Of w))

/-- The opcode map (R66): the format and the instruction of an opcode; an opcode that is not listed is
unassigned (R67). -/
def decodeOpcode (op : BitVec 8) (w : Pattern) : Except DecodeError Instr :=
  match op with
  | 0x00#8 => formatN w .stop
  | 0x01#8 => formatR3 w .add
  | 0x02#8 => formatI2 w .addi
  | 0x03#8 => formatI2 w .addiu
  | 0x04#8 => formatR3 w .addu
  | 0x05#8 => formatR3 w .and
  | 0x06#8 => formatI2 w .andi
  | 0x07#8 => formatI2 w .beq
  | 0x08#8 => formatI1 w .bgez
  | 0x09#8 => formatI1 w .bgezal
  | 0x0A#8 => formatI1 w .bgtz
  | 0x0B#8 => formatI1 w .blez
  | 0x0C#8 => formatI1 w .bltz
  | 0x0D#8 => formatI1 w .bltzal
  | 0x0E#8 => formatI2 w .bne
  | 0x0F#8 => formatR2 w .div
  | 0x10#8 => formatR2 w .divu
  | 0x11#8 => formatJ w .j
  | 0x12#8 => formatJ w .jal
  | 0x13#8 => formatR1 w .jr
  | 0x14#8 => formatI2 w .lb
  | 0x15#8 => formatI1 w .lui
  | 0x16#8 => formatI2 w .lw
  | 0x17#8 => formatR1 w .mfhi
  | 0x18#8 => formatR1 w .mflo
  | 0x19#8 => formatR3 w .mult
  | 0x1A#8 => formatR3 w .multu
  | 0x1B#8 => formatN w .noop
  | 0x1C#8 => formatR3 w .or
  | 0x1D#8 => formatI2 w .ori
  | 0x1E#8 => formatI2 w .sb
  | 0x1F#8 => formatI2 w .sll
  | 0x20#8 => formatR3 w .sllv
  | 0x21#8 => formatR3 w .slt
  | 0x22#8 => formatI2 w .slti
  | 0x23#8 => formatI2 w .sltiu
  | 0x24#8 => formatR3 w .sltu
  | 0x25#8 => formatI2 w .sra
  | 0x26#8 => formatI2 w .srl
  | 0x27#8 => formatR3 w .srlv
  | 0x28#8 => formatR3 w .srav
  | 0x29#8 => formatR3 w .sub
  | 0x2A#8 => formatR3 w .subu
  | 0x2B#8 => formatI2 w .sw
  | 0x2C#8 => formatN w .syscall
  | 0x2D#8 => formatR3 w .xor
  | 0x2E#8 => formatI2 w .xori
  | 0x2F#8 => formatR3 w .mod
  | 0x30#8 => formatR3 w .smod
  | 0x31#8 => formatR4 w .addmod
  | 0x32#8 => formatR4 w .mulmod
  | 0x33#8 => formatR3 w .exp
  | 0x34#8 => formatI2 w .modi
  | 0x35#8 => formatI2 w .smodi
  | 0x36#8 => formatI2 w .expi
  | 0x80#8 => formatR1 w .gas
  | 0x81#8 => formatR2 w .balance
  | 0x82#8 => formatR1 w .address
  | 0x83#8 => formatR1 w .origin
  | 0x84#8 => formatR1 w .caller
  | 0x85#8 => formatR1 w .callvalue
  | 0x86#8 => formatR2 w .blockhash
  | 0x87#8 => formatR1 w .coinbase
  | 0x88#8 => formatR1 w .timestamp
  | 0x89#8 => formatR1 w .number
  | 0x8A#8 => formatR1 w .difficulty
  | 0x8B#8 => formatR1 w .gaslimit
  | 0x8C#8 => formatR1 w .gasprice
  | 0x8D#8 => formatR1 w .calldatasize
  | 0x8E#8 => formatR2 w .calldataload
  | 0x8F#8 => formatR3 w .calldatacopy
  | 0x90#8 => formatR1 w .codesize
  | 0x91#8 => formatR3 w .codecopy
  | 0x92#8 => formatR2 w .extcodesize
  | 0x93#8 => formatR2 w .extcodehash
  | 0x94#8 => formatR4 w .extcodecopy
  | 0x95#8 => formatR1 w .returndatasize
  | 0x96#8 => formatR3 w .returndatacopy
  | 0x97#8 => formatR2 w .call
  | 0x98#8 => formatR2 w .callcode
  | 0x99#8 => formatR2 w .delegatecall
  | 0x9A#8 => formatR2 w .staticcall
  | 0x9B#8 => formatR2 w .ret
  | 0x9C#8 => formatR5 w .create2
  | 0x9D#8 => formatR2 w .revert
  | 0x9E#8 => formatR3 w .keccak
  | 0x9F#8 => formatR2 w .log0
  | 0xA0#8 => formatR3 w .log1
  | 0xA1#8 => formatR4 w .log2
  | 0xA2#8 => formatR5 w .log3
  | 0xA3#8 => formatR6 w .log4
  | 0xAA#8 => formatI0 w .jumpto
  | 0xAB#8 => formatI0 w .jumpif
  | 0xAC#8 => formatV w .jumpv
  | 0xAD#8 => formatI0 w .jumpsub
  | 0xAE#8 => formatV w .jumpsubv
  | 0xAF#8 => formatN w .returnsub
  | 0xB0#8 => formatI1 w .getlocal
  | 0xB1#8 => formatI1 w .putlocal
  | 0xB2#8 => formatS w .beginsub
  | 0xB3#8 => formatN w .begindata
  | 0xB4#8 => formatC w .simdadd
  | 0xB5#8 => formatC w .simdmul
  | 0xB6#8 => formatC w .simdsub
  | 0xB7#8 => formatC w .simddiv
  | 0xB8#8 => formatC w .simdsdiv
  | 0xB9#8 => formatC w .simdmod
  | 0xBA#8 => formatC w .simdsmod
  | 0xBB#8 => formatC w .simdlt
  | 0xBC#8 => formatC w .simdgt
  | 0xBD#8 => formatC w .simdslt
  | 0xBE#8 => formatC w .simdsgt
  | 0xBF#8 => formatC w .simdeq
  | 0xC0#8 => formatC w .simdiszero
  | 0xC1#8 => formatC w .simdand
  | 0xC2#8 => formatC w .simdor
  | 0xC3#8 => formatC w .simdxor
  | 0xC4#8 => formatC w .simdnot
  | 0xC5#8 => formatC w .simdshl
  | 0xC6#8 => formatC w .simdshr
  | 0xC7#8 => formatC w .simdsar
  | 0xC8#8 => formatC w .simdrol
  | 0xC9#8 => formatC w .simdror
  | 0xCA#8 => formatCX w .simdindex
  | 0xCC#8 => formatC w .simdshuffle
  | 0xCD#8 => formatP w .checkproof
  | 0xCE#8 => formatT w .checktemplate
  | _ => .error .unassignedOpcode

/-- Decode a pattern: "the opcode alone selects the instruction" (R64). -/
def decode (w : Pattern) : Except DecodeError Instr := decodeOpcode (opcodeOf w) w

/-- The pattern of an instruction: its opcode, its operands in their slots, and 0 in every unused slot
(R62, R66, R68). -/
def encode : Instr → Pattern
  | .stop => pack 0x00#8 0 0 0 0 0 0
  | .add rd rs rt => pack 0x01#8 (slotOf rd) (slotOf rs) (slotOf rt) 0 0 0
  | .addi rs rt imm => packImm24 0x02#8 (slotOf rs) (slotOf rt) imm
  | .addiu rs rt imm => packImm24 0x03#8 (slotOf rs) (slotOf rt) imm
  | .addu rd rs rt => pack 0x04#8 (slotOf rd) (slotOf rs) (slotOf rt) 0 0 0
  | .and rd rs rt => pack 0x05#8 (slotOf rd) (slotOf rs) (slotOf rt) 0 0 0
  | .andi rd rs imm => packImm24 0x06#8 (slotOf rd) (slotOf rs) imm
  | .beq rs rt off => packImm24 0x07#8 (slotOf rs) (slotOf rt) off
  | .bgez rs off => packImm24 0x08#8 (slotOf rs) 0 off
  | .bgezal rs off => packImm24 0x09#8 (slotOf rs) 0 off
  | .bgtz rs off => packImm24 0x0A#8 (slotOf rs) 0 off
  | .blez rs off => packImm24 0x0B#8 (slotOf rs) 0 off
  | .bltz rs off => packImm24 0x0C#8 (slotOf rs) 0 off
  | .bltzal rs off => packImm24 0x0D#8 (slotOf rs) 0 off
  | .bne rs rt off => packImm24 0x0E#8 (slotOf rs) (slotOf rt) off
  | .div rs rt => pack 0x0F#8 (slotOf rs) (slotOf rt) 0 0 0 0
  | .divu rs rt => pack 0x10#8 (slotOf rs) (slotOf rt) 0 0 0 0
  | .j target => packImm36 0x11#8 target
  | .jal target => packImm36 0x12#8 target
  | .jr rs => pack 0x13#8 (slotOf rs) 0 0 0 0 0
  | .lb rd rs off => packImm24 0x14#8 (slotOf rd) (slotOf rs) off
  | .lui rd imm => packImm24 0x15#8 (slotOf rd) 0 imm
  | .lw rd rs off => packImm24 0x16#8 (slotOf rd) (slotOf rs) off
  | .mfhi rd => pack 0x17#8 (slotOf rd) 0 0 0 0 0
  | .mflo rd => pack 0x18#8 (slotOf rd) 0 0 0 0 0
  | .mult rd rs rt => pack 0x19#8 (slotOf rd) (slotOf rs) (slotOf rt) 0 0 0
  | .multu rd rs rt => pack 0x1A#8 (slotOf rd) (slotOf rs) (slotOf rt) 0 0 0
  | .noop => pack 0x1B#8 0 0 0 0 0 0
  | .or rd rs rt => pack 0x1C#8 (slotOf rd) (slotOf rs) (slotOf rt) 0 0 0
  | .ori rd rs imm => packImm24 0x1D#8 (slotOf rd) (slotOf rs) imm
  | .sb rs rt off => packImm24 0x1E#8 (slotOf rs) (slotOf rt) off
  | .sll rd rs imm => packImm24 0x1F#8 (slotOf rd) (slotOf rs) imm
  | .sllv rd rs rt => pack 0x20#8 (slotOf rd) (slotOf rs) (slotOf rt) 0 0 0
  | .slt rd rs rt => pack 0x21#8 (slotOf rd) (slotOf rs) (slotOf rt) 0 0 0
  | .slti rd rs imm => packImm24 0x22#8 (slotOf rd) (slotOf rs) imm
  | .sltiu rd rs imm => packImm24 0x23#8 (slotOf rd) (slotOf rs) imm
  | .sltu rd rs rt => pack 0x24#8 (slotOf rd) (slotOf rs) (slotOf rt) 0 0 0
  | .sra rd rs imm => packImm24 0x25#8 (slotOf rd) (slotOf rs) imm
  | .srl rd rs imm => packImm24 0x26#8 (slotOf rd) (slotOf rs) imm
  | .srlv rd rs rt => pack 0x27#8 (slotOf rd) (slotOf rs) (slotOf rt) 0 0 0
  | .srav rd rs rt => pack 0x28#8 (slotOf rd) (slotOf rs) (slotOf rt) 0 0 0
  | .sub rd rs rt => pack 0x29#8 (slotOf rd) (slotOf rs) (slotOf rt) 0 0 0
  | .subu rd rs rt => pack 0x2A#8 (slotOf rd) (slotOf rs) (slotOf rt) 0 0 0
  | .sw rs rt off => packImm24 0x2B#8 (slotOf rs) (slotOf rt) off
  | .syscall => pack 0x2C#8 0 0 0 0 0 0
  | .xor rd rs rt => pack 0x2D#8 (slotOf rd) (slotOf rs) (slotOf rt) 0 0 0
  | .xori rs rt imm => packImm24 0x2E#8 (slotOf rs) (slotOf rt) imm
  | .mod rd rs rt => pack 0x2F#8 (slotOf rd) (slotOf rs) (slotOf rt) 0 0 0
  | .smod rd rs rt => pack 0x30#8 (slotOf rd) (slotOf rs) (slotOf rt) 0 0 0
  | .addmod rd rs rt ru => pack 0x31#8 (slotOf rd) (slotOf rs) (slotOf rt) (slotOf ru) 0 0
  | .mulmod rd rs rt ru => pack 0x32#8 (slotOf rd) (slotOf rs) (slotOf rt) (slotOf ru) 0 0
  | .exp rd rs rt => pack 0x33#8 (slotOf rd) (slotOf rs) (slotOf rt) 0 0 0
  | .modi rd rs imm => packImm24 0x34#8 (slotOf rd) (slotOf rs) imm
  | .smodi rd rs imm => packImm24 0x35#8 (slotOf rd) (slotOf rs) imm
  | .expi rd rs imm => packImm24 0x36#8 (slotOf rd) (slotOf rs) imm
  | .gas rd => pack 0x80#8 (slotOf rd) 0 0 0 0 0
  | .balance rd rs => pack 0x81#8 (slotOf rd) (slotOf rs) 0 0 0 0
  | .address rd => pack 0x82#8 (slotOf rd) 0 0 0 0 0
  | .origin rd => pack 0x83#8 (slotOf rd) 0 0 0 0 0
  | .caller rd => pack 0x84#8 (slotOf rd) 0 0 0 0 0
  | .callvalue rd => pack 0x85#8 (slotOf rd) 0 0 0 0 0
  | .blockhash rd rs => pack 0x86#8 (slotOf rd) (slotOf rs) 0 0 0 0
  | .coinbase rd => pack 0x87#8 (slotOf rd) 0 0 0 0 0
  | .timestamp rd => pack 0x88#8 (slotOf rd) 0 0 0 0 0
  | .number rd => pack 0x89#8 (slotOf rd) 0 0 0 0 0
  | .difficulty rd => pack 0x8A#8 (slotOf rd) 0 0 0 0 0
  | .gaslimit rd => pack 0x8B#8 (slotOf rd) 0 0 0 0 0
  | .gasprice rd => pack 0x8C#8 (slotOf rd) 0 0 0 0 0
  | .calldatasize rd => pack 0x8D#8 (slotOf rd) 0 0 0 0 0
  | .calldataload rd rs => pack 0x8E#8 (slotOf rd) (slotOf rs) 0 0 0 0
  | .calldatacopy rd rs rt => pack 0x8F#8 (slotOf rd) (slotOf rs) (slotOf rt) 0 0 0
  | .codesize rd => pack 0x90#8 (slotOf rd) 0 0 0 0 0
  | .codecopy rd rs rt => pack 0x91#8 (slotOf rd) (slotOf rs) (slotOf rt) 0 0 0
  | .extcodesize rd rs => pack 0x92#8 (slotOf rd) (slotOf rs) 0 0 0 0
  | .extcodehash rd rs => pack 0x93#8 (slotOf rd) (slotOf rs) 0 0 0 0
  | .extcodecopy rd rs rt ru => pack 0x94#8 (slotOf rd) (slotOf rs) (slotOf rt) (slotOf ru) 0 0
  | .returndatasize rd => pack 0x95#8 (slotOf rd) 0 0 0 0 0
  | .returndatacopy rd rs rt => pack 0x96#8 (slotOf rd) (slotOf rs) (slotOf rt) 0 0 0
  | .call rd rs => pack 0x97#8 (slotOf rd) (slotOf rs) 0 0 0 0
  | .callcode rd rs => pack 0x98#8 (slotOf rd) (slotOf rs) 0 0 0 0
  | .delegatecall rd rs => pack 0x99#8 (slotOf rd) (slotOf rs) 0 0 0 0
  | .staticcall rd rs => pack 0x9A#8 (slotOf rd) (slotOf rs) 0 0 0 0
  | .ret rs rt => pack 0x9B#8 (slotOf rs) (slotOf rt) 0 0 0 0
  | .create2 rd rs rt ru rv => pack 0x9C#8 (slotOf rd) (slotOf rs) (slotOf rt) (slotOf ru) (slotOf rv) 0
  | .revert rs rt => pack 0x9D#8 (slotOf rs) (slotOf rt) 0 0 0 0
  | .keccak rd rs rt => pack 0x9E#8 (slotOf rd) (slotOf rs) (slotOf rt) 0 0 0
  | .log0 rs rt => pack 0x9F#8 (slotOf rs) (slotOf rt) 0 0 0 0
  | .log1 rs rt ru => pack 0xA0#8 (slotOf rs) (slotOf rt) (slotOf ru) 0 0 0
  | .log2 rs rt ru rv => pack 0xA1#8 (slotOf rs) (slotOf rt) (slotOf ru) (slotOf rv) 0 0
  | .log3 rs rt ru rv rw => pack 0xA2#8 (slotOf rs) (slotOf rt) (slotOf ru) (slotOf rv) (slotOf rw) 0
  | .log4 rs rt ru rv rw rx => pack 0xA3#8 (slotOf rs) (slotOf rt) (slotOf ru) (slotOf rv) (slotOf rw) (slotOf rx)
  | .jumpto imm => packImm24 0xAA#8 0 0 imm
  | .jumpif imm => packImm24 0xAB#8 0 0 imm
  | .jumpv rs n off => packImm24 0xAC#8 (slotOf rs) n off
  | .jumpsub imm => packImm24 0xAD#8 0 0 imm
  | .jumpsubv rs n off => packImm24 0xAE#8 (slotOf rs) n off
  | .returnsub => pack 0xAF#8 0 0 0 0 0 0
  | .getlocal rd off => packImm24 0xB0#8 (slotOf rd) 0 off
  | .putlocal rs off => packImm24 0xB1#8 (slotOf rs) 0 off
  | .beginsub args returns => pack 0xB2#8 0 0 0 0 args returns
  | .begindata => pack 0xB3#8 0 0 0 0 0 0
  | .simdadd ctx rd rs rt => pack 0xB4#8 ctx (slotOf rd) (slotOf rs) (slotOf rt) 0 0
  | .simdmul ctx rd rs rt => pack 0xB5#8 ctx (slotOf rd) (slotOf rs) (slotOf rt) 0 0
  | .simdsub ctx rd rs rt => pack 0xB6#8 ctx (slotOf rd) (slotOf rs) (slotOf rt) 0 0
  | .simddiv ctx rd rs rt => pack 0xB7#8 ctx (slotOf rd) (slotOf rs) (slotOf rt) 0 0
  | .simdsdiv ctx rd rs rt => pack 0xB8#8 ctx (slotOf rd) (slotOf rs) (slotOf rt) 0 0
  | .simdmod ctx rd rs rt => pack 0xB9#8 ctx (slotOf rd) (slotOf rs) (slotOf rt) 0 0
  | .simdsmod ctx rd rs rt => pack 0xBA#8 ctx (slotOf rd) (slotOf rs) (slotOf rt) 0 0
  | .simdlt ctx rd rs rt => pack 0xBB#8 ctx (slotOf rd) (slotOf rs) (slotOf rt) 0 0
  | .simdgt ctx rd rs rt => pack 0xBC#8 ctx (slotOf rd) (slotOf rs) (slotOf rt) 0 0
  | .simdslt ctx rd rs rt => pack 0xBD#8 ctx (slotOf rd) (slotOf rs) (slotOf rt) 0 0
  | .simdsgt ctx rd rs rt => pack 0xBE#8 ctx (slotOf rd) (slotOf rs) (slotOf rt) 0 0
  | .simdeq ctx rd rs rt => pack 0xBF#8 ctx (slotOf rd) (slotOf rs) (slotOf rt) 0 0
  | .simdiszero ctx rd rs rt => pack 0xC0#8 ctx (slotOf rd) (slotOf rs) (slotOf rt) 0 0
  | .simdand ctx rd rs rt => pack 0xC1#8 ctx (slotOf rd) (slotOf rs) (slotOf rt) 0 0
  | .simdor ctx rd rs rt => pack 0xC2#8 ctx (slotOf rd) (slotOf rs) (slotOf rt) 0 0
  | .simdxor ctx rd rs rt => pack 0xC3#8 ctx (slotOf rd) (slotOf rs) (slotOf rt) 0 0
  | .simdnot ctx rd rs rt => pack 0xC4#8 ctx (slotOf rd) (slotOf rs) (slotOf rt) 0 0
  | .simdshl ctx rd rs rt => pack 0xC5#8 ctx (slotOf rd) (slotOf rs) (slotOf rt) 0 0
  | .simdshr ctx rd rs rt => pack 0xC6#8 ctx (slotOf rd) (slotOf rs) (slotOf rt) 0 0
  | .simdsar ctx rd rs rt => pack 0xC7#8 ctx (slotOf rd) (slotOf rs) (slotOf rt) 0 0
  | .simdrol ctx rd rs rt => pack 0xC8#8 ctx (slotOf rd) (slotOf rs) (slotOf rt) 0 0
  | .simdror ctx rd rs rt => pack 0xC9#8 ctx (slotOf rd) (slotOf rs) (slotOf rt) 0 0
  | .simdindex ctx rd rs idx => pack 0xCA#8 ctx (slotOf rd) (slotOf rs) idx 0 0
  | .simdshuffle ctx rd rs rt => pack 0xCC#8 ctx (slotOf rd) (slotOf rs) (slotOf rt) 0 0
  | .checkproof rd rs rt n index => pack 0xCD#8 (slotOf rd) (slotOf rs) (slotOf rt) (n ++ index) 0 0
  | .checktemplate rd rs rt imm => packImm18 0xCE#8 (slotOf rd) (slotOf rs) (slotOf rt) imm

/-- The instruction the decoder reads from a pattern given as a number, bit 0 its least significant bit, as
spec/opcode_table.json numbers it (R61). A pattern has 44 bits, so a larger number is no pattern. -/
def decodeTableWord (_nbits w : Nat) : Option Instr :=
  if w < 2 ^ 44 then
    match decode (BitVec.ofNat 44 w) with
    | .ok i => some i
    | .error _ => none
  else none

end Sys2Proof
end

