-- ==== Sys2Proof/Config.lean ====
section
/-! DEFINITION. What one run or one implementation fixes: the environment record (10_state.md R22), the
OPEN parameters (00_scope.md R2), and the functions the spec leaves uninterpreted or OPEN
(`keccak256`, `CallOracle`, `CreateOracle`, `ProofOracle`), as constants without a body. -/

namespace Sys2Proof

/-- The environment record `env` (R22). The maps of the record are total functions of their key; here
each is a finite table, and a key that is not listed has the value 0 (the empty string for `code`). The
key sets are finite, so every total function is such a table (notes/assumptions/7.md). -/
structure Env where
  /-- `$gas`, "gas remaining". -/
  gas : Word
  /-- `$gaslimit`, "the block's gas limit (as set by the client)". -/
  gaslimit : Word
  /-- `$gasprice`. -/
  gasprice : Word
  /-- `$address`, "the address of the currently executing account". -/
  address : Word
  /-- `$origin`, "the sender of the original transaction". -/
  origin : Word
  /-- `$caller`. -/
  caller : Word
  /-- `$value`. -/
  value : Word
  /-- `$coinbase`, "the beneficiary address". -/
  coinbase : Word
  /-- `$timestamp`. -/
  timestamp : Word
  /-- `$number`. -/
  number : Word
  /-- `$difficulty`. -/
  difficulty : Word
  /-- `$balance[a]`, by account key. -/
  balance : Table Word
  /-- `$blockhash(n)`, by block number. -/
  blockhash : Table Word
  /-- `$code[a]`, the byte string `CodeBytes` of an account (20_memory.md R48). -/
  code : Table (List Byte)
  /-- `$codehash[a]`, by account key. -/
  codehash : Table Word
  /-- `$calldata`. -/
  calldata : List Byte
  deriving DecidableEq, Repr, Inhabited

/-- A value of `SimdCtx`: the lane width in bits and the lane count (48_eip616_simd.md R250 a). -/
structure SimdShape where
  /-- `W`, the lane width in bits. -/
  laneBits : Nat
  /-- `N`, the lane count. -/
  laneCount : Nat
  deriving DecidableEq, Repr, Inhabited

/-- The OPEN parameters of 00_scope.md R2 that a rule of the machine reads. The model takes them as
arguments: they are plain data in the state, and no step writes them. -/
structure Params where
  /-- `MEM_SIZE`, the number of bytes of data memory, "at most 2^XLEN" (20_memory.md R40). Read through
  `Params.memSize`. -/
  memBytes : Fin (2 ^ 256 + 1)
  /-- `CALLSTACK_MAX`, the largest depth of the call stack; `none` is unbounded (R20). -/
  callstackMax : Option Nat
  /-- `ZERO_REG`: whether register 0 reads as zero and ignores writes (R2, R10). -/
  zeroReg : Bool
  /-- `SimdCtx`, from the 6-bit context to the lane shape (R250 a). -/
  simdCtx : Table SimdShape
  deriving DecidableEq, Repr, Inhabited

/-- `MEM_SIZE` as a number. -/
def Params.memSize (p : Params) : Nat := p.memBytes.val

/-- The four message calls that consult `CallOracle` (46_ethereum_calls_logs.md R210). -/
inductive CallKind where
  | call
  | callcode
  | delegatecall
  | staticcall
  deriving DecidableEq, Repr, Inhabited

/-- One answer of `CallOracle`: `(ok, MEM', returndata', env')` of R210. `MEM'` is given by the bytes
that differ from `MEM`, and `env'` by the two fields that R180 a lets a call change. -/
structure CallAnswer where
  /-- `ok`, 1 when the call completes successfully. -/
  ok : Bool
  /-- The bytes of `MEM'`, written over `MEM` in order. -/
  writes : List Host.Cell
  /-- `returndata'`. -/
  returndata : List Byte
  /-- `env'.gas`. -/
  gas : Word
  /-- `env'.balance`. -/
  balance : Table Word
  deriving DecidableEq, Repr, Inhabited

/-- The four source values of CREATE2, in the order R216 gives them (92_eei_decisions.md D47). -/
structure CreateArgs where
  /-- `v1 = x[rs]`, the value. -/
  value : Word
  /-- `v2 = x[rt]`, the memory offset. -/
  offset : Word
  /-- `v3 = x[ru]`, the size. -/
  size : Word
  /-- `v4 = x[rv]`, the salt. -/
  salt : Word
  deriving DecidableEq, Repr, Inhabited

/-- One answer of `CreateOracle`: `(result, returndata', env')` of R210. -/
structure CreateAnswer where
  /-- `result`, what `rd` receives. -/
  result : Word
  /-- `returndata'`. -/
  returndata : List Byte
  /-- `env'.gas`. -/
  gas : Word
  /-- `env'.balance`. -/
  balance : Table Word
  deriving DecidableEq, Repr, Inhabited

/-- `CallOracle(kind, p, MEM, env, returndata)` (R210), OPEN. The first argument counts the
consultations of the run, since the oracle may be a relation (notes/assumptions/15.md). DESIGN CHOICE, unsafe: it
is total, so it answers on every argument (notes/assumptions/28.md). -/
opaque Config.callOracle :
  Nat → CallKind → Word → Memory → Env → List Byte → CallAnswer

/-- `CreateOracle(v1, v2, v3, v4, MEM, env, returndata)` (R210), OPEN, with the same counter
(notes/assumptions/17.md). DESIGN CHOICE, unsafe: it is total (notes/assumptions/28.md). -/
opaque Config.createOracle :
  Nat → CreateArgs → Memory → Env → List Byte → CreateAnswer

/-- `ProofOracle(n, index, h, root)` (49_mast_covenants.md R280), OPEN: a total function of its four
arguments only (notes/assumptions/18.md). -/
opaque Config.proofOracle : Nat → Nat → List Byte → Word → Bool

/-- `BE(keccak256(b))`: `keccak256` is an uninterpreted function (R218), "from a byte string to a 256-bit
value" (R2); its 32 output bytes are read as one big-endian integer (notes/assumptions/19.md). -/
opaque Config.keccak256 : List Byte → Word

end Sys2Proof
end

