-- ==== Sys2Proof/Machine/State.lean ====
section
/-! DEFINITION. The state of the machine as plain data: every element of spec/10_state.md, the code space and
the jump vector (20_memory.md R47, R49), the launch parameters the spec leaves OPEN (00_scope.md R2), and the
state right after launch (R26, R331). -/

namespace Sys2Proof.Machine

/-- The cause of a fault: the twelve of 60_exceptions.md R301, each with the values R301 says `FAULTED(cause)`
may carry. The `PC` that R301 lists for every cause is `State.pc`, which a fault leaves at the faulting
instruction (R302). -/
inductive Cause where
  /-- Code 1: `Program(PC)` is undefined at the start of a step. Raised by the step. -/
  | fetchFault
  /-- Code 2: the fetched pattern has an unassigned opcode. Raised by the step. -/
  | illegalInstruction (pattern : Pattern)
  /-- Code 3: a read or write of `n > 0` bytes with `addr + n > MEM_SIZE`. -/
  | memoryFault (addr n : Nat)
  /-- Code 4: the signed result does not fit in 256 bits (ADDMOD also on an unsigned carry). -/
  | overflow
  /-- Code 5: the divisor or modulus is zero. -/
  | divideByZero
  /-- Code 6: a read of `n > 0` bytes of a byte string past its end. -/
  | envRangeFault (offset n : Nat)
  /-- Code 7: the index into `DataVec` is outside it. -/
  | dataRangeFault (index : Int)
  /-- Code 8: a pop of the empty call stack. -/
  | callStackUnderflow
  /-- Code 9: a push beyond a finite `CALLSTACK_MAX`. -/
  | callStackOverflow
  /-- Code 10: KECCAK with `x[rt] <= x[rs]`. -/
  | invalidRange
  /-- Code 11: BEGINDATA is executed. -/
  | dataExecuted
  /-- Code 12: an undefined SIMD context, or a lane index not below the lane count. -/
  | simdFault
  deriving DecidableEq, Repr

/-- The code of a cause (R301). "Nothing in the machine stores them except `state`." -/
def Cause.code : Cause → Nat
  | .fetchFault => 1
  | .illegalInstruction _ => 2
  | .memoryFault _ _ => 3
  | .overflow => 4
  | .divideByZero => 5
  | .envRangeFault _ _ => 6
  | .dataRangeFault _ => 7
  | .callStackUnderflow => 8
  | .callStackOverflow => 9
  | .invalidRange => 10
  | .dataExecuted => 11
  | .simdFault => 12

/-- The run state, the source's `$state` (10_state.md R15, 60_exceptions.md R314). Every value but `running`
is final. -/
inductive RunState where
  /-- RUNNING, the launch value. -/
  | running
  /-- STOPPED, after STOP. -/
  | stopped
  /-- RETURNED(data), after RETURN. -/
  | returned (data : List Byte)
  /-- REVERTED(data), after REVERT. -/
  | reverted (data : List Byte)
  /-- FAULTED(cause), after a fault. -/
  | faulted (cause : Cause)
  deriving DecidableEq, Repr

/-- An entry of `log`: 0 to 4 topics in operand order, then the data (46_ethereum_calls_logs.md R219). -/
structure LogEntry where
  /-- The topics. -/
  topics : List Word
  /-- The bytes of memory that were logged. -/
  data : List Byte
  deriving DecidableEq, Repr

/-- The state of the machine. -/
structure State where
  /-- `x[0]` to `x[63]` (R10). Read and written through `State.reg` and `State.setReg`. -/
  regs : Vector Word 64
  /-- `$hi` (R11). -/
  hi : Word
  /-- `$lo` (R11). -/
  lo : Word
  /-- `PC`, the address of the instruction being executed (R12). -/
  pc : CodeAddr
  /-- `nPC`, the address of the instruction that will run next (R12). -/
  npc : CodeAddr
  /-- `$compare`, a one-bit flag no instruction writes (R18). -/
  compare : Bool
  /-- `$subroutinemarker`, which no instruction writes (R19). -/
  marker : Word
  /-- `$state` (R15). -/
  runState : RunState
  /-- `$callstack`, the top first (R20). -/
  callstack : List CodeAddr
  /-- `SUBS`, in order of pushing (R21). -/
  subs : List CodeAddr
  /-- `MEM` (20_memory.md R40). -/
  mem : Memory
  /-- `$log`, in order of appending (R24). -/
  log : List LogEntry
  /-- `$returndata` (R24). -/
  returndata : List Byte
  /-- The environment record (R22). -/
  env : Env
  /-- The code space `Program` (20_memory.md R47). -/
  program : Table Pattern
  /-- The jump vector `DataVec` behind `DATA` (20_memory.md R49). -/
  dataVec : Table CodeAddr
  /-- The OPEN parameters of the run (00_scope.md R2). -/
  params : Params
  /-- The MODEL's own field: how many times the run has consulted the call and create oracles
  (notes/assumptions/15.md). -/
  freeCount : Nat
  deriving DecidableEq, Repr

/-- Why the machine has no next state. -/
inductive Fault where
  /-- Raised by `step` alone, when `state` is not RUNNING: "there is no step" (R13). Safe: it is the spec's
  own stop, and the faults of the spec are next states with `runState = faulted cause`. -/
  | notRunning
  deriving DecidableEq, Repr

/-- Why the model gives the fetched pattern no meaning. -/
inductive Refusal where
  /-- Raised by an arm of `exec` whose instruction has no meaning yet. Safe. No arm raises it now. -/
  | notModelled (mnemonic : String)
  /-- Raised by `step` when the fetched pattern has an assigned opcode and a non-zero unused slot: "the spec
  gives it no meaning, and a model refuses it" (30_encoding.md R68). Safe. -/
  | reservedPattern
  deriving DecidableEq, Repr

/-- The outcome of a step or of an instruction. -/
abbrev Result := Host.Outcome State Fault Refusal

/-- The environment of the reset state: 0 and empty everywhere. DESIGN CHOICE, unsafe
(notes/assumptions/7.md). -/
def resetEnv : Env where
  gas := 0
  gaslimit := 0
  gasprice := 0
  address := 0
  origin := 0
  caller := 0
  value := 0
  coinbase := 0
  timestamp := 0
  number := 0
  difficulty := 0
  balance := []
  blockhash := []
  code := []
  codehash := []
  calldata := []

/-- The parameters of the reset state. `ZERO_REG = false` and an unbounded call stack are the spec's values
(R2); `MEM_SIZE = 65536` and the three SIMD contexts are those of the spec's vectors, DESIGN CHOICE, unsafe
(notes/assumptions/5.md, notes/assumptions/8.md). -/
def resetParams : Params where
  memBytes := ⟨65536, by decide⟩
  callstackMax := none
  zeroReg := false
  simdCtx := [(1, ⟨64, 4⟩), (3, ⟨8, 4⟩), (4, ⟨16, 2⟩)]

/-- The machine right after a launch whose record gives nothing but the parameters (R26, R331): `PC = ENTRY =
0`, `nPC = 4`, RUNNING, the lists empty, no program loaded. The zeros of the registers, `hi`, `lo`, `compare`
and `marker` are DESIGN CHOICE, unsafe (notes/assumptions/2.md, notes/assumptions/3.md,
notes/assumptions/4.md). -/
def State.reset : State where
  regs := Vector.replicate 64 0
  hi := 0
  lo := 0
  pc := 0
  npc := 4
  compare := false
  marker := 0
  runState := .running
  callstack := []
  subs := []
  mem := []
  log := []
  returndata := []
  env := resetEnv
  program := []
  dataVec := []
  params := resetParams
  freeCount := 0

end Sys2Proof.Machine
end

