-- ==== Sys2Proof/Machine/Flags.lean ====
section
/-! DEFINITION. Every condition an instruction computes: the overflow and carry checks, the comparisons, and
the one flag of the machine. The machine has no carry, overflow, zero or sign flag: "`w overflow`
instructions fault instead of setting a flag" (10_state.md R18). -/

namespace Sys2Proof.Machine

/-- `MIN = -2^(XLEN-1)` (00_scope.md R3). -/
def wordMin : Int := -(2 ^ 255)

/-- `MAX = 2^(XLEN-1) - 1` (00_scope.md R3). -/
def wordMax : Int := 2 ^ 255 - 1

/-- An exact signed result fits in 256 bits (40_alu_arith.md R100). -/
def fitsWord (r : Int) : Bool := decide (wordMin ≤ r) && decide (r ≤ wordMax)

/-- A carry out of bit 255 of an unsigned sum (44_alu_evm_arith.md R173). -/
def carryOut (a b : Word) : Bool := decide (2 ^ 256 ≤ a.toNat + b.toNat)

/-- A comparison's result: the value 1 or 0, of any width (41_alu_logic_shift_compare.md R120 d,
48_eip616_simd.md R251). -/
def oneIf {w : Nat} (c : Bool) : BitVec w := if c then 1 else 0

/-- `s(a) < s(b)`. -/
def ltSigned {w : Nat} (a b : BitVec w) : Bool := decide (a.toInt < b.toInt)

/-- `u(a) < u(b)`. -/
def ltUnsigned {w : Nat} (a b : BitVec w) : Bool := decide (a.toNat < b.toNat)

/-! The conditions of the branches (42_alu_control.md R140): comparisons with zero are signed. -/

/-- `s_256(v) >= 0`. -/
def isNonNegative (v : Word) : Bool := decide (0 ≤ v.toInt)

/-- `s_256(v) > 0`. -/
def isPositive (v : Word) : Bool := decide (0 < v.toInt)

/-- `s_256(v) <= 0`. -/
def isNonPositive (v : Word) : Bool := decide (v.toInt ≤ 0)

/-- `s_256(v) < 0`. -/
def isNegative (v : Word) : Bool := decide (v.toInt < 0)

/-- The flag JUMPIF reads: `compare = 1` (10_state.md R18). -/
def State.compareSet (s : State) : Bool := s.compare

end Sys2Proof.Machine
end

