-- ==== Sys2Proof/Machine/Alu.lean ====
section
/-! DEFINITION. The arithmetic the instruction families share, on words of any width: shifts
(41_alu_logic_shift_compare.md R120 c), division (40_alu_arith.md R113), rotation (48_eip616_simd.md R272,
R273) and exponentiation (44_alu_evm_arith.md R175). -/

namespace Sys2Proof.Machine

/-- `trunc(u(v) * 2^n)`, which is 0 when `n` is the width or more. -/
def shiftLeft {w : Nat} (v : BitVec w) (n : Nat) : BitVec w :=
  if w ≤ n then 0 else BitVec.ofNat w (v.toNat * 2 ^ n)

/-- `floor(u(v) / 2^n)`, which is 0 when `n` is the width or more. -/
def shiftRightLogical {w : Nat} (v : BitVec w) (n : Nat) : BitVec w :=
  if w ≤ n then 0 else BitVec.ofNat w (v.toNat / 2 ^ n)

/-- `floor(s(v) / 2^n)` re-encoded: 0 or all ones by the sign when `n` is the width or more. -/
def shiftRightArithmetic {w : Nat} (v : BitVec w) (n : Nat) : BitVec w :=
  if w ≤ n then (if v.toInt < 0 then BitVec.allOnes w else 0) else BitVec.ofInt w (v.toInt / 2 ^ n)

/-- The quotient truncated toward zero, at the width of the operands: `MIN / -1` is `MIN` (R113). -/
def signedQuotient {w : Nat} (a b : Int) : BitVec w := BitVec.ofInt w (a.tdiv b)

/-- The remainder with the sign of the dividend (R113). -/
def signedRemainder {w : Nat} (a b : Int) : BitVec w := BitVec.ofInt w (a.tmod b)

/-- `floor(u(a) / u(b))`. -/
def unsignedQuotient {w : Nat} (a b : BitVec w) : BitVec w := BitVec.ofNat w (a.toNat / b.toNat)

/-- `u(a) mod u(b)`. -/
def unsignedRemainder {w : Nat} (a b : BitVec w) : BitVec w := BitVec.ofNat w (a.toNat % b.toNat)

/-- Rotate left by `n mod W` positions (R272). -/
def rotateLeft {w : Nat} (a : BitVec w) (n : Nat) : BitVec w :=
  let k := n % w
  if k = 0 then a else BitVec.ofNat w ((a.toNat * 2 ^ k) % 2 ^ w + a.toNat / 2 ^ (w - k))

/-- Rotate right by `n mod W` positions (R273). -/
def rotateRight {w : Nat} (a : BitVec w) (n : Nat) : BitVec w :=
  let k := n % w
  if k = 0 then a else BitVec.ofNat w (a.toNat / 2 ^ k + (a.toNat * 2 ^ (w - k)) % 2 ^ w)

/-- Square and multiply over the low `k` bits of the exponent, from an accumulator. -/
def powLoop : Nat → Nat → Nat → Nat → Nat
  | 0, _, _, acc => acc
  | k + 1, base, e, acc =>
    powLoop k (base * base % 2 ^ 256) (e / 2) (if e % 2 = 1 then acc * base % 2 ^ 256 else acc)

/-- `(base ^ e) mod 2^256` with `base^0 = 1`, by modular exponentiation as R175 asks; it is the power for
every exponent below 2^256 (`powWord_toNat` in Laws/Alu.lean). -/
def powWord (base : Word) (e : Nat) : Word := BitVec.ofNat 256 (powLoop 256 base.toNat e 1)

end Sys2Proof.Machine
end

