-- ==== Sys2Proof/Machine/Ops.lean ====
section
/-! DEFINITION. The named operations over the state: the pseudocode primitives of 00_scope.md R4 and the
shared frames of the instruction families. Nothing else in the model touches a field of the state. -/

namespace Sys2Proof.Machine

/-! ### Bytes (20_memory.md R43) -/

/-- `BE(bytes)`: the first byte is the most significant. -/
def beNat : List Byte → Nat
  | [] => 0
  | b :: bs => b.toNat * 256 ^ bs.length + beNat bs

/-- `bytes_BE(v, n)`: the `n` bytes with `BE(bytes_BE(v, n)) = v mod 2^(8n)`. -/
def bytesBE (v : Nat) : Nat → List Byte
  | 0 => []
  | n + 1 => BitVec.ofNat 8 (v / 256 ^ n) :: bytesBE v n

/-! ### Data memory (20_memory.md R40) -/

/-- What an address that is not listed reads as. DESIGN CHOICE, unsafe (notes/assumptions/6.md). -/
def Memory.unlisted : Byte := 0

/-- The byte at an address. -/
def Memory.read : Memory → Nat → Byte
  | [], _ => Memory.unlisted
  | (k, v) :: rest, a => if k = a then v else Memory.read rest a

/-- Put an entry before the first larger address. -/
def Memory.insertCell (a : Nat) (b : Byte) : Memory → Memory
  | [] => [(a, b)]
  | (k, v) :: rest => if a < k then (a, b) :: (k, v) :: rest else (k, v) :: Memory.insertCell a b rest

/-- Write one byte, keeping the canonical form: the byte an unlisted address reads as is not listed. -/
def Memory.write (m : Memory) (a : Nat) (b : Byte) : Memory :=
  let others := m.filter (fun cell => !(cell.1 == a))
  if b = Memory.unlisted then others else Memory.insertCell a b others

/-- The canonical form: addresses strictly rising, and no entry equal to what an unlisted address reads
as. -/
def Memory.wf : Memory → Bool
  | [] => true
  | (k, v) :: rest =>
    !(v == Memory.unlisted) && rest.all (fun cell => decide (k < cell.1)) && Memory.wf rest

/-- The `n` bytes from an address on, the lowest address first. -/
def Memory.readBytes (m : Memory) (a : Nat) : Nat → List Byte
  | 0 => []
  | n + 1 => Memory.read m a :: Memory.readBytes m (a + 1) n

/-- Write bytes from an address on. -/
def Memory.writeBytes (m : Memory) (a : Nat) : List Byte → Memory
  | [] => m
  | b :: bs => Memory.writeBytes (Memory.write m a b) (a + 1) bs

/-- Write the cells whose address is allowed, in order. -/
def Memory.writeCells (m : Memory) (allowed : Nat → Bool) : List Host.Cell → Memory
  | [] => m
  | (a, b) :: rest => Memory.writeCells (if allowed a then Memory.write m a b else m) allowed rest

/-- The byte of data memory at an address. -/
def State.byte (s : State) (a : Nat) : Byte := Memory.read s.mem a

/-- The range check of R41 and R42: a count of 0 touches no byte; otherwise the range must end inside
memory, on unbounded integers. -/
def State.inMemory (s : State) (addr n : Nat) : Bool := n == 0 || decide (addr + n ≤ s.params.memSize)

/-- `MemRead(addr, n)` (R41). -/
def State.memRead (s : State) (addr n : Nat) : Except Cause (List Byte) :=
  if s.inMemory addr n then .ok (Memory.readBytes s.mem addr n) else .error (.memoryFault addr n)

/-- `MemWrite(addr, n, bytes)`, `n` the length of the bytes (R42). A write that faults writes no byte. -/
def State.memWrite (s : State) (addr : Nat) (bytes : List Byte) : Except Cause State :=
  if s.inMemory addr bytes.length then .ok { s with mem := Memory.writeBytes s.mem addr bytes }
  else .error (.memoryFault addr bytes.length)

/-! ### Registers (10_state.md R10, R11) -/

/-- Read a general register. With `ZERO_REG` (R2, R10) register 0 reads as zero. -/
def State.reg (s : State) (r : Reg) : Word :=
  if s.params.zeroReg && r == 0 then 0 else s.regs.get r

/-- Write a general register. With `ZERO_REG` (R2, R10) register 0 ignores writes. -/
def State.setReg (s : State) (r : Reg) (v : Word) : State :=
  { s with regs := if s.params.zeroReg && r == 0 then s.regs else s.regs.set r v }

/-- Write `hi` and `lo`. -/
def State.setHiLo (s : State) (hi lo : Word) : State := { s with hi := hi, lo := lo }

/-! ### The two counters (10_state.md R12, R14) -/

/-- `advance(k)`: `PC <- nPC; nPC <- trunc_32(u(nPC) + k)`. -/
def State.advanceBy (s : State) (k : Int) : State :=
  { s with pc := s.npc, npc := BitVec.ofInt 32 (s.npc.toNat + k) }

/-- `advance()`: `ILEN = 4`. -/
def State.advance (s : State) : State := s.advanceBy 4

/-- A control transfer: `PC <- nPC; nPC <- T` (70_reset_and_hazards.md R333). -/
def State.transfer (s : State) (target : CodeAddr) : State := { s with pc := s.npc, npc := target }

/-! ### The run state and faults (60_exceptions.md R302, R314) -/

/-- `state <- S`. -/
def State.halt (s : State) (r : RunState) : State := { s with runState := r }

/-- `raise Fault(cause)`: the run ends, and no register, memory byte, list or counter changes (R302). There is
no trap entry and no return from a fault: nothing is saved and no handler runs (R304, R305). -/
def raise (c : Cause) (s : State) : Result := .next (s.halt (.faulted c))

/-- Go on with the value, or raise the fault. -/
def orRaise {α : Type} (r : Except Cause α) (s : State) (k : α → Result) : Result :=
  match r with
  | .ok v => k v
  | .error c => raise c s

/-- End an instruction whose result goes to a register: `x[rd] <- v; advance()`. -/
def writeBack (rd : Reg) (v : Word) (s : State) : Result := .next (s.setReg rd v).advance

/-- End an instruction whose effect is a write of data memory: `MemWrite(addr, n, bytes); advance()`. -/
def store (addr : Nat) (bytes : List Byte) (s : State) : Result :=
  orRaise (s.memWrite addr bytes) s fun t => .next t.advance

/-! ### Fetch (20_memory.md R47) -/

/-- `Program(PC)`: defined only at multiples of 4 where the program lists a pattern. -/
def State.fetch (s : State) : Option Pattern :=
  if s.pc.toNat % 4 = 0 then s.program.lookup s.pc.toNat else none

/-- The program with this pattern at this code address. -/
def Program.place (prog : Table Pattern) (a : Nat) (w : Pattern) : Table Pattern :=
  (a, w) :: prog.filter (fun entry => !(entry.1 == a))

/-! ### Lists of addresses and the log (R20, R21, R24) -/

/-- `DATA[k]` (20_memory.md R49); a negative index is outside `DataVec` (47_eip615_subroutines.md R233). -/
def State.dataEntry (s : State) (k : Int) : Except Cause CodeAddr :=
  if k < 0 then .error (.dataRangeFault k)
  else
    match s.dataVec.lookup k.toNat with
    | some a => .ok a
    | none => .error (.dataRangeFault k)

/-- `callstack.push(a)`; a push beyond a finite `CALLSTACK_MAX` faults (R234, R301). -/
def State.push (s : State) (a : CodeAddr) : Except Cause State :=
  match s.params.callstackMax with
  | none => .ok { s with callstack := a :: s.callstack }
  | some n =>
    if s.callstack.length < n then .ok { s with callstack := a :: s.callstack }
    else .error .callStackOverflow

/-- `callstack.pop()`: the popped address and the state without it (R236). -/
def State.pop (s : State) : Except Cause (CodeAddr × State) :=
  match s.callstack with
  | [] => .error .callStackUnderflow
  | a :: rest => .ok (a, { s with callstack := rest })

/-- `subs.push(a)`: append (R21). -/
def State.pushSub (s : State) (a : CodeAddr) : State := { s with subs := s.subs ++ [a] }

/-- `log.push(e)`: append (46_ethereum_calls_logs.md R219). -/
def State.pushLog (s : State) (e : LogEntry) : State := { s with log := s.log ++ [e] }

/-! ### The environment (10_state.md R22) -/

/-- `env.balance(a)`: the whole register is the key (45_ethereum_env.md R180 b). -/
def Env.balanceOf (e : Env) (a : Word) : Word := (e.balance.lookup a.toNat).getD 0

/-- `env.blockhash(n)`. -/
def Env.blockhashOf (e : Env) (n : Nat) : Word := (e.blockhash.lookup n).getD 0

/-- `env.code(a)`. -/
def Env.codeOf (e : Env) (a : Word) : List Byte := (e.code.lookup a.toNat).getD []

/-- `env.codehash(a)`. -/
def Env.codehashOf (e : Env) (a : Word) : Word := (e.codehash.lookup a.toNat).getD 0

/-- `size(S)` of a byte string, delivered to a register. -/
def sizeWord (bytes : List Byte) : Word := BitVec.ofNat 256 bytes.length

/-- `S[o..o+n]` of a read-only byte string (20_memory.md R50): a read of one byte or more past the end
faults. -/
def stringRead (bytes : List Byte) (o n : Nat) : Except Cause (List Byte) :=
  if n == 0 || decide (o + n ≤ bytes.length) then .ok ((bytes.drop o).take n)
  else .error (.envRangeFault o n)

/-- The copy instructions (45_ethereum_env.md R180 c): `n` bytes at offset `o` of `bytes` go to data memory at
`d`; EnvRangeFault comes before MemoryFault (60_exceptions.md R303). -/
def copyToMemory (bytes : List Byte) (d o n : Nat) (s : State) : Result :=
  orRaise (stringRead bytes o n) s fun data => store d data s

/-! ### The oracles (46_ethereum_calls_logs.md R210, 45_ethereum_env.md R180 a) -/

/-- `env <- env'`: a call changes the gas and the balances, and no other field (R180 a, R308;
notes/assumptions/16.md). -/
def State.setWorld (s : State) (gas : Word) (balance : Table Word) : State :=
  { s with env := { s.env with gas := gas, balance := balance } }

/-- `returndata <- bytes`. -/
def State.setReturndata (s : State) (bytes : List Byte) : State := { s with returndata := bytes }

/-- Count one consultation of a call or create oracle (notes/assumptions/15.md). -/
def State.consulted (s : State) : State := { s with freeCount := s.freeCount + 1 }

/-- The oracle's answer to a message call in this state. -/
def State.askCall (s : State) (kind : CallKind) (p : Word) : CallAnswer :=
  Config.callOracle s.freeCount kind p s.mem s.env s.returndata

/-- The oracle's answer to a creation in this state. -/
def State.askCreate (s : State) (args : CreateArgs) : CreateAnswer :=
  Config.createOracle s.freeCount args s.mem s.env s.returndata

/-- The end of a message call (R210): `x[rd] <- ok; MEM <- MEM'; returndata <- returndata'; env <- env'`, with
`MEM'` equal to `MEM` at every address that is not allowed; then `advance()`. -/
def finishCall (rd : Reg) (allowed : Nat → Bool) (ans : CallAnswer) (s : State) : Result :=
  let t := { s with mem := Memory.writeCells s.mem allowed ans.writes }
  writeBack rd (if ans.ok then 1 else 0)
    ((t.setReturndata ans.returndata).setWorld ans.gas ans.balance).consulted

/-- The end of CREATE2 (R216). -/
def finishCreate (rd : Reg) (ans : CreateAnswer) (s : State) : Result :=
  writeBack rd ans.result
    ((s.setReturndata ans.returndata).setWorld ans.gas ans.balance).consulted

end Sys2Proof.Machine
end

