-- ==== Sys2Proof/WellFormed.lean ====
section
/-! DEFINITION. What the spec asks of the inputs of a run, as decidable checks: the shape of a SIMD context
(48_eip616_simd.md R250 a) and the static validity of a program and its jump vector
(47_eip615_subroutines.md R241). An instruction needs no check of its own: the operand types of `Instr` hold
exactly the values their fields encode, so every term of `Instr` is well formed (30_encoding.md R62, R63).
No step tests these predicates ("The run-time rules do not test the predicate", R241). -/

namespace Sys2Proof

/-- The lane width is a multiple of 8 from 8 to 256, and there is a lane (R250 a). -/
def SimdShape.valid (sh : SimdShape) : Bool :=
  sh.laneBits % 8 == 0 && decide (8 ≤ sh.laneBits) && decide (sh.laneBits ≤ 256)
    && decide (1 ≤ sh.laneCount)

/-- A decoded program: the instruction at each code address. -/
abbrev Listing := Table Instr

/-- The code address holds a BEGINSUB. -/
def Listing.isSubroutine (prog : Listing) (a : Nat) : Bool :=
  match prog.lookup a with
  | some (.beginsub _ _) => true
  | _ => false

/-- The code address holds an instruction. -/
def Listing.isInstruction (prog : Listing) (a : Nat) : Bool := (prog.lookup a).isSome

/-- The indices a JUMPV or JUMPSUBV with this count and offset can select (R233): `off` to `off + n - 1`,
and for `n = 0` the one index `off - 1`, which is no index when `off = 0`. -/
def selectableIndices (n off : Nat) : List Nat :=
  if n = 0 then (if off = 0 then [] else [off - 1]) else (List.range n).map (off + ·)

/-- Every entry of `DataVec` that the jump can select meets the check. -/
def entriesMeet (data : Table CodeAddr) (check : Nat → Bool) (n off : Nat) : Bool :=
  (selectableIndices n off).all fun k =>
    match data.lookup k with
    | some a => check a.toNat
    | none => true

/-- The clause of R241 for one instruction. -/
def Instr.staticallyValid (prog : Listing) (data : Table CodeAddr) : Instr → Bool
  | .jumpsub imm => prog.isSubroutine imm.toNat
  | .jumpsubv _ n off => entriesMeet data prog.isSubroutine n.toNat off.toNat
  | .jumpv _ n off => entriesMeet data prog.isInstruction n.toNat off.toNat
  | .jumpto imm => prog.isInstruction imm.toNat
  | .jumpif imm => prog.isInstruction imm.toNat
  | _ => true

/-- `WellFormed(Program, DataVec)` (R241). -/
def Listing.wellFormed (prog : Listing) (data : Table CodeAddr) : Bool :=
  prog.all fun entry =>
    match prog.lookup entry.1 with
    | some i => i.staticallyValid prog data
    | none => true

/-- `Program` is defined at `BASE, BASE+4, ...`, an unbroken stretch up to its last instruction, with `BASE` a
multiple of 4 and every address below 2^32 (20_memory.md R47): the table lists it in order of address. -/
def unbrokenFrom {α : Type} (base : CodeAddr) (prog : Table α) : Bool :=
  base.toNat % 4 == 0 && decide (base.toNat + 4 * prog.length ≤ 2 ^ 32)
    && prog.map (·.1) == (List.range prog.length).map (base.toNat + 4 * ·)

/-- Every address of a program is a multiple of 4 below 2^32 (20_memory.md R47, R332 b). -/
def addressesAligned {α : Type} (prog : Table α) : Bool :=
  prog.all fun entry => entry.1 % 4 == 0 && decide (entry.1 < 2 ^ 32)

end Sys2Proof
end

