-- ==== Sys2Proof/Machine/Operands.lean ====
section
/-! DEFINITION. Every operand form: the immediates with their extension and scaling (30_encoding.md R65), the
addresses (20_memory.md R44, 43_alu_loadstore.md R160), the targets and link values of control transfers
(42_alu_control.md R140, R152; 10_state.md R17), the jump-table index (47_eip615_subroutines.md R233), the
argument block of a message call (46_ethereum_calls_logs.md R211) and the vectors (48_eip616_simd.md R250). -/

namespace Sys2Proof.Machine

/-! ### Immediates (R65) -/

/-- `s_24(imm24)`: ADDI, ADDIU, SLTI, SMODI, branch and memory offsets. -/
def signedImm (imm : BitVec 24) : Int := imm.toInt

/-- `sext_256(imm24)`. -/
def signExtended (imm : BitVec 24) : Word := imm.signExtend 256

/-- `zext_256(imm24)`: ANDI, ORI, XORI, SLTIU, MODI. -/
def zeroExtended (imm : BitVec 24) : Word := imm.setWidth 256

/-- The operand of LUI: `zext_256(imm24) * 2^16` (R123). -/
def upperImmediate (imm : BitVec 24) : Word := BitVec.ofNat 256 (imm.toNat * 2 ^ 16)

/-! ### Addresses -/

/-- `ea = trunc_256(u(base) + s_24(offset))` (R44, R160). -/
def effectiveAddress (base : Word) (off : BitVec 24) : Nat :=
  (BitVec.ofInt 256 (base.toNat + signedImm off)).toNat

/-- `ea = trunc_256(u(marker) + u(imm24))` (R237, R238). -/
def localAddress (marker : Word) (off : BitVec 24) : Nat :=
  (BitVec.ofNat 256 (marker.toNat + off.toNat)).toNat

/-! ### Control transfer -/

/-- The displacement of a branch, `s_24(imm24) * 4` (R140). -/
def branchDisplacement (off : BitVec 24) : Int := signedImm off * 4

/-- The target of J and JAL (R152); the first argument is the new `PC`, the delay slot's address. -/
def regionTarget (newPc : CodeAddr) (target : BitVec 36) : CodeAddr :=
  BitVec.ofNat 32 ((newPc.toNat &&& 0xF0000000) ||| (target.toNat * 4))

/-- A register value written to `nPC`: `trunc_32` (R17, R153). -/
def registerTarget (v : Word) : CodeAddr := v.setWidth 32

/-- The 24-bit code address of an EIP-615 transfer, zero-extended and not scaled (R230). -/
def codeAddress (imm : BitVec 24) : CodeAddr := imm.setWidth 32

/-- A link value: `zext_256(trunc_32(u(PC) + k))` (R17, R144, R151). -/
def linkValue (pc : CodeAddr) (k : Nat) : Word := (BitVec.ofNat 32 (pc.toNat + k)).setWidth 256

/-- The link register (R16). -/
def linkRegister : Reg := 31

/-- The index of a jump-table entry: `(i >= n) ? off + n - 1 : off + i` (R233). -/
def tableIndex (i n off : Nat) : Int := if n ≤ i then (off : Int) + n - 1 else (off : Int) + i

/-! ### The argument block of a message call (R211) -/

/-- The seven words of the block, in the order of R211. -/
structure CallBlock where
  gas : Nat
  account : Nat
  value : Nat
  inOffset : Nat
  inSize : Nat
  outOffset : Nat
  outSize : Nat
  deriving DecidableEq, Repr

/-- Word `i` of a byte sequence: 32 bytes, big-endian. -/
def wordAt (bytes : List Byte) (i : Nat) : Nat := beNat ((bytes.drop (32 * i)).take 32)

/-- The block in 224 bytes. -/
def callBlock (bytes : List Byte) : CallBlock where
  gas := wordAt bytes 0
  account := wordAt bytes 1
  value := wordAt bytes 2
  inOffset := wordAt bytes 3
  inSize := wordAt bytes 4
  outOffset := wordAt bytes 5
  outSize := wordAt bytes 6

/-- An address of the output range. -/
def CallBlock.inOutput (b : CallBlock) (a : Nat) : Bool :=
  decide (b.outOffset ≤ a) && decide (a < b.outOffset + b.outSize)

/-! ### Vectors (R250) -/

/-- `SimdCtx(C)`: a value of the map is a valid shape, so an entry of another form is no value
(notes/assumptions/22.md). -/
def State.simdShape (s : State) (ctx : Slot) : Except Cause SimdShape :=
  match s.params.simdCtx.lookup ctx.toNat with
  | some sh => if sh.valid then .ok sh else .error .simdFault
  | none => .error .simdFault

/-- `LB = W / 8`. -/
def laneBytes (sh : SimdShape) : Nat := sh.laneBits / 8

/-- `VB = N * LB`. -/
def vectorBytes (sh : SimdShape) : Nat := sh.laneCount * laneBytes sh

/-- The first `n` lanes of a byte sequence, `lb` bytes each and big-endian, lane 0 first (R250 c). -/
def lanesOf (w lb : Nat) (bytes : List Byte) : Nat → List (BitVec w)
  | 0 => []
  | n + 1 => BitVec.ofNat w (beNat (bytes.take lb)) :: lanesOf w lb (bytes.drop lb) n

/-- The bytes of the lanes in order. -/
def bytesOfLanes {w : Nat} (lb : Nat) : List (BitVec w) → List Byte
  | [] => []
  | v :: vs => bytesBE v.toNat lb ++ bytesOfLanes lb vs

/-- `VecRead(A)` (R250 d). -/
def State.vecRead (s : State) (sh : SimdShape) (addr : Nat) : Except Cause (List (BitVec sh.laneBits)) :=
  match s.memRead addr (vectorBytes sh) with
  | .ok bytes => .ok (lanesOf sh.laneBits (laneBytes sh) bytes sh.laneCount)
  | .error c => .error c

end Sys2Proof.Machine
end

