-- ==== Sys2Proof/Machine/Arith.lean ====
section
/-! DEFINITION. Integer arithmetic: 40_alu_arith.md R100 to R113. -/

namespace Sys2Proof.Machine

/-- A "with overflow" instruction (R100): the exact signed result, or `Fault(Overflow)`. -/
def writeChecked (rd : Reg) (r : Int) (s : State) : Result :=
  if fitsWord r then writeBack rd (BitVec.ofInt 256 r) s else raise .overflow s

/-- Write the quotient to `lo` and the remainder to `hi`, then advance. -/
def writeHiLo (hi lo : Word) (s : State) : Result := .next (s.setHiLo hi lo).advance

/-- ADD (R101). -/
def execAdd (rd rs rt : Reg) (s : State) : Result :=
  writeChecked rd ((s.reg rs).toInt + (s.reg rt).toInt) s

/-- ADDI (R102): the destination is `rt`, in slot2. -/
def execAddi (rs rt : Reg) (imm : BitVec 24) (s : State) : Result :=
  writeChecked rt ((s.reg rs).toInt + signedImm imm) s

/-- ADDIU (R103): the immediate is sign-extended, and the sum wraps. -/
def execAddiu (rs rt : Reg) (imm : BitVec 24) (s : State) : Result :=
  writeBack rt (BitVec.ofNat 256 ((s.reg rs).toNat + (signExtended imm).toNat)) s

/-- ADDU (R104). -/
def execAddu (rd rs rt : Reg) (s : State) : Result :=
  writeBack rd (BitVec.ofNat 256 ((s.reg rs).toNat + (s.reg rt).toNat)) s

/-- DIV (R105), signed: `lo` the quotient, `hi` the remainder. -/
def execDiv (rs rt : Reg) (s : State) : Result :=
  let a := (s.reg rs).toInt
  let b := (s.reg rt).toInt
  if b = 0 then raise .divideByZero s
  else writeHiLo (signedRemainder a b) (signedQuotient a b) s

/-- DIVU (R106), unsigned. -/
def execDivu (rs rt : Reg) (s : State) : Result :=
  let a := s.reg rs
  let b := s.reg rt
  if b.toNat = 0 then raise .divideByZero s
  else writeHiLo (unsignedRemainder a b) (unsignedQuotient a b) s

/-- MFHI (R107). -/
def execMfhi (rd : Reg) (s : State) : Result := writeBack rd s.hi s

/-- MFLO (R108). -/
def execMflo (rd : Reg) (s : State) : Result := writeBack rd s.lo s

/-- MULT (R109): the product goes to `rd`; `hi` and `lo` are not written. -/
def execMult (rd rs rt : Reg) (s : State) : Result :=
  writeChecked rd ((s.reg rs).toInt * (s.reg rt).toInt) s

/-- MULTU (R110). -/
def execMultu (rd rs rt : Reg) (s : State) : Result :=
  writeBack rd (BitVec.ofNat 256 ((s.reg rs).toNat * (s.reg rt).toNat)) s

/-- SUB (R111). -/
def execSub (rd rs rt : Reg) (s : State) : Result :=
  writeChecked rd ((s.reg rs).toInt - (s.reg rt).toInt) s

/-- SUBU (R112): the difference modulo 2^256. -/
def execSubu (rd rs rt : Reg) (s : State) : Result :=
  writeBack rd (BitVec.ofInt 256 ((s.reg rs).toNat - (s.reg rt).toNat)) s

end Sys2Proof.Machine
end

