-- ==== Sys2Proof/Machine/Calls.lean ====
section
/-! DEFINITION. Calls, CREATE2, RETURN, REVERT, KECCAK and the logs: 46_ethereum_calls_logs.md R210 to
R224. -/

namespace Sys2Proof.Machine

/-- CALL and CALLCODE (R211, R212): the argument block, the input range and the output range are checked in
this order (60_exceptions.md R303); memory may change in the output range only. After the checks the call completes:
DESIGN CHOICE, unsafe, the oracle is total (notes/assumptions/28.md). -/
def messageCall (kind : CallKind) (rd rs : Reg) (s : State) : Result :=
  orRaise (s.memRead (s.reg rs).toNat 224) s fun bytes =>
    let b := callBlock bytes
    orRaise (s.memRead b.inOffset b.inSize) s fun _ =>
      if s.inMemory b.outOffset b.outSize then
        finishCall rd b.inOutput (s.askCall kind (s.reg rs)) s
      else raise (.memoryFault b.outOffset b.outSize) s

/-- DELEGATECALL and STATICCALL (R213, R214): no argument layout, no fault and no bound on where memory may
change is fixed; memory has the addresses below `MEM_SIZE` (20_memory.md R40). Whether there is a fault "the
oracle's domain decides" (R213): DESIGN CHOICE, unsafe, the oracle is total, so the instruction completes on every
state and operand (notes/assumptions/28.md). -/
def openCall (kind : CallKind) (rd rs : Reg) (s : State) : Result :=
  finishCall rd (fun a => decide (a < s.params.memSize)) (s.askCall kind (s.reg rs)) s

/-- CALL (R211). -/
def execCall (rd rs : Reg) (s : State) : Result := messageCall .call rd rs s

/-- CALLCODE (R212). -/
def execCallcode (rd rs : Reg) (s : State) : Result := messageCall .callcode rd rs s

/-- DELEGATECALL (R213). -/
def execDelegatecall (rd rs : Reg) (s : State) : Result := openCall .delegatecall rd rs s

/-- STATICCALL (R214). -/
def execStaticcall (rd rs : Reg) (s : State) : Result := openCall .staticcall rd rs s

/-- RETURN (R215): `PC` and `nPC` stay. -/
def execRet (rs rt : Reg) (s : State) : Result :=
  orRaise (s.memRead (s.reg rs).toNat (s.reg rt).toNat) s fun data => .next (s.halt (.returned data))

/-- CREATE2 (R216): memory is not changed. DESIGN CHOICE, unsafe: the oracle is total
(notes/assumptions/28.md). -/
def execCreate2 (rd rs rt ru rv : Reg) (s : State) : Result :=
  finishCreate rd (s.askCreate ⟨s.reg rs, s.reg rt, s.reg ru, s.reg rv⟩) s

/-- REVERT (R217): the machine's own registers, memory and log stay. -/
def execRevert (rs rt : Reg) (s : State) : Result :=
  orRaise (s.memRead (s.reg rs).toNat (s.reg rt).toNat) s fun data => .next (s.halt (.reverted data))

/-- KECCAK (R218): the second operand is the end address, exclusive; InvalidRange comes before
MemoryFault. -/
def execKeccak (rd rs rt : Reg) (s : State) : Result :=
  let a := (s.reg rs).toNat
  let b := (s.reg rt).toNat
  if b ≤ a then raise .invalidRange s
  else orRaise (s.memRead a (b - a)) s fun bytes => writeBack rd (Config.keccak256 bytes) s

/-- The logs (R219): `log.push((topics, MemRead(u(x[rs]), u(x[rt]))))`, then advance. -/
def logWith (rs rt : Reg) (topics : List Word) (s : State) : Result :=
  orRaise (s.memRead (s.reg rs).toNat (s.reg rt).toNat) s fun data =>
    .next (s.pushLog ⟨topics, data⟩).advance

/-- LOG0 (R220). -/
def execLog0 (rs rt : Reg) (s : State) : Result := logWith rs rt [] s

/-- LOG1 (R221). -/
def execLog1 (rs rt ru : Reg) (s : State) : Result := logWith rs rt [s.reg ru] s

/-- LOG2 (R222). -/
def execLog2 (rs rt ru rv : Reg) (s : State) : Result := logWith rs rt [s.reg ru, s.reg rv] s

/-- LOG3 (R223). -/
def execLog3 (rs rt ru rv rw : Reg) (s : State) : Result :=
  logWith rs rt [s.reg ru, s.reg rv, s.reg rw] s

/-- LOG4 (R224). -/
def execLog4 (rs rt ru rv rw rx : Reg) (s : State) : Result :=
  logWith rs rt [s.reg ru, s.reg rv, s.reg rw, s.reg rx] s

end Sys2Proof.Machine
end

