-- ==== Sys2Proof/Machine/Control.lean ====
section
/-! DEFINITION. Control transfer, STOP, NOOP and SYSCALL: 42_alu_control.md R140 to R157. -/

namespace Sys2Proof.Machine

/-- A conditional branch (R140). -/
def branchIf (c : Bool) (off : BitVec 24) (s : State) : Result :=
  .next (if c then s.advanceBy (branchDisplacement off) else s.advance)

/-- A conditional branch that links when it is taken (R144, R148): `x[31] <- PC + 12`. -/
def branchLinkIf (c : Bool) (off : BitVec 24) (s : State) : Result :=
  .next (if c then (s.setReg linkRegister (linkValue s.pc 12)).advanceBy (branchDisplacement off)
    else s.advance)

/-- STOP (R141): `PC` and `nPC` stay. -/
def execStop (s : State) : Result := .next (s.halt .stopped)

/-- BEQ (R142): all 256 bits are compared. -/
def execBeq (rs rt : Reg) (off : BitVec 24) (s : State) : Result :=
  branchIf (s.reg rs == s.reg rt) off s

/-- BGEZ (R143). -/
def execBgez (rs : Reg) (off : BitVec 24) (s : State) : Result :=
  branchIf (isNonNegative (s.reg rs)) off s

/-- BGEZAL (R144). -/
def execBgezal (rs : Reg) (off : BitVec 24) (s : State) : Result :=
  branchLinkIf (isNonNegative (s.reg rs)) off s

/-- BGTZ (R145). -/
def execBgtz (rs : Reg) (off : BitVec 24) (s : State) : Result :=
  branchIf (isPositive (s.reg rs)) off s

/-- BLEZ (R146). -/
def execBlez (rs : Reg) (off : BitVec 24) (s : State) : Result :=
  branchIf (isNonPositive (s.reg rs)) off s

/-- BLTZ (R147). -/
def execBltz (rs : Reg) (off : BitVec 24) (s : State) : Result :=
  branchIf (isNegative (s.reg rs)) off s

/-- BLTZAL (R148). -/
def execBltzal (rs : Reg) (off : BitVec 24) (s : State) : Result :=
  branchLinkIf (isNegative (s.reg rs)) off s

/-- BNE (R149). -/
def execBne (rs rt : Reg) (off : BitVec 24) (s : State) : Result :=
  branchIf (!(s.reg rs == s.reg rt)) off s

/-- J (R150): the region is that of the delay slot, the new `PC`. -/
def execJ (target : BitVec 36) (s : State) : Result :=
  .next (s.transfer (regionTarget s.npc target))

/-- JAL (R151): it links `PC + 8`, always. -/
def execJal (target : BitVec 36) (s : State) : Result :=
  .next ((s.setReg linkRegister (linkValue s.pc 8)).transfer (regionTarget s.npc target))

/-- JR (R153). -/
def execJr (rs : Reg) (s : State) : Result := .next (s.transfer (registerTarget (s.reg rs)))

/-- NOOP (R154). -/
def execNoop (s : State) : Result := .next s.advance

/-- SYSCALL (R155): "does exactly what NOOP does, including the advance". -/
def execSyscall (s : State) : Result := .next s.advance

end Sys2Proof.Machine
end

