-- ==== Sys2Proof/Machine/Covenant.lean ====
section
/-! DEFINITION. CHECKPROOF and CHECKTEMPLATE: 49_mast_covenants.md R280, R281. -/

namespace Sys2Proof.Machine

/-- CHECKPROOF (R280): `n` hashes of 32 bytes at `x[rs]`, the root in `x[rt]`. -/
def execCheckproof (rd rs rt : Reg) (n index : BitVec 3) (s : State) : Result :=
  orRaise (s.memRead (s.reg rs).toNat (n.toNat * 32)) s fun hashes =>
    writeBack rd (oneIf (Config.proofOracle n.toNat index.toNat hashes (s.reg rt))) s

/-- CHECKTEMPLATE (R281): the immediate is decoded and not used. -/
def execChecktemplate (rd rs rt : Reg) (_imm : BitVec 18) (s : State) : Result :=
  writeBack rd (oneIf (s.reg rs &&& s.reg rt == 0)) s

end Sys2Proof.Machine
end

