-- ==== Sys2Proof/Machine/Environment.lean ====
section
/-! DEFINITION. Environment reads and copies: 45_ethereum_env.md R180 to R203. -/

namespace Sys2Proof.Machine

/-- GAS (R181): `x[rd] <- env.gas`. -/
def execGas (rd : Reg) (s : State) : Result := writeBack rd s.env.gas s

/-- BALANCE (R184). -/
def execBalance (rd rs : Reg) (s : State) : Result :=
  writeBack rd (Env.balanceOf s.env (s.reg rs)) s

/-- ADDRESS (R185): `x[rd] <- env.address`. -/
def execAddress (rd : Reg) (s : State) : Result := writeBack rd s.env.address s

/-- ORIGIN (R186): `x[rd] <- env.origin`. -/
def execOrigin (rd : Reg) (s : State) : Result := writeBack rd s.env.origin s

/-- CALLER (R187): `x[rd] <- env.caller`. -/
def execCaller (rd : Reg) (s : State) : Result := writeBack rd s.env.caller s

/-- CALLVALUE (R188): `x[rd] <- env.value`. -/
def execCallvalue (rd : Reg) (s : State) : Result := writeBack rd s.env.value s

/-- BLOCKHASH (R189): the block number is the 8 bytes of memory at `x[rs]`, big-endian. -/
def execBlockhash (rd rs : Reg) (s : State) : Result :=
  orRaise (s.memRead (s.reg rs).toNat 8) s fun bytes =>
    writeBack rd (Env.blockhashOf s.env (beNat bytes)) s

/-- COINBASE (R190): `x[rd] <- env.coinbase`. -/
def execCoinbase (rd : Reg) (s : State) : Result := writeBack rd s.env.coinbase s

/-- TIMESTAMP (R191): `x[rd] <- env.timestamp`. -/
def execTimestamp (rd : Reg) (s : State) : Result := writeBack rd s.env.timestamp s

/-- NUMBER (R192): `x[rd] <- env.number`. -/
def execNumber (rd : Reg) (s : State) : Result := writeBack rd s.env.number s

/-- DIFFICULTY (R193): `x[rd] <- env.difficulty`. -/
def execDifficulty (rd : Reg) (s : State) : Result := writeBack rd s.env.difficulty s

/-- GASLIMIT (R182): `x[rd] <- env.gaslimit`. -/
def execGaslimit (rd : Reg) (s : State) : Result := writeBack rd s.env.gaslimit s

/-- GASPRICE (R183): `x[rd] <- env.gasprice`. -/
def execGasprice (rd : Reg) (s : State) : Result := writeBack rd s.env.gasprice s

/-- CALLDATASIZE (R194). -/
def execCalldatasize (rd : Reg) (s : State) : Result := writeBack rd (sizeWord s.env.calldata) s

/-- CALLDATALOAD (R195): 32 bytes of call data, the first the most significant. -/
def execCalldataload (rd rs : Reg) (s : State) : Result :=
  orRaise (stringRead s.env.calldata (s.reg rs).toNat 32) s fun bytes =>
    writeBack rd (BitVec.ofNat 256 (beNat bytes)) s

/-- CALLDATACOPY (R196). -/
def execCalldatacopy (rd rs rt : Reg) (s : State) : Result :=
  copyToMemory s.env.calldata (s.reg rd).toNat (s.reg rs).toNat (s.reg rt).toNat s

/-- CODESIZE (R197). -/
def execCodesize (rd : Reg) (s : State) : Result :=
  writeBack rd (sizeWord (Env.codeOf s.env s.env.address)) s

/-- CODECOPY (R198). -/
def execCodecopy (rd rs rt : Reg) (s : State) : Result :=
  copyToMemory (Env.codeOf s.env s.env.address) (s.reg rd).toNat (s.reg rs).toNat (s.reg rt).toNat s

/-- EXTCODESIZE (R199). -/
def execExtcodesize (rd rs : Reg) (s : State) : Result :=
  writeBack rd (sizeWord (Env.codeOf s.env (s.reg rs))) s

/-- EXTCODEHASH (R200). -/
def execExtcodehash (rd rs : Reg) (s : State) : Result :=
  writeBack rd (Env.codehashOf s.env (s.reg rs)) s

/-- EXTCODECOPY (R201): the account is `ru`, in slot4. -/
def execExtcodecopy (rd rs rt ru : Reg) (s : State) : Result :=
  copyToMemory (Env.codeOf s.env (s.reg ru)) (s.reg rd).toNat (s.reg rs).toNat (s.reg rt).toNat s

/-- RETURNDATASIZE (R202). -/
def execReturndatasize (rd : Reg) (s : State) : Result := writeBack rd (sizeWord s.returndata) s

/-- RETURNDATACOPY (R203). -/
def execReturndatacopy (rd rs rt : Reg) (s : State) : Result :=
  copyToMemory s.returndata (s.reg rd).toNat (s.reg rs).toNat (s.reg rt).toNat s

end Sys2Proof.Machine
end

