-- ==== Sys2Proof/Machine/EvmArith.lean ====
section
/-! DEFINITION. The "Special EVM op" arithmetic: 44_alu_evm_arith.md R170 to R178. Every operand is read before
anything is written (R170 b). -/

namespace Sys2Proof.Machine

/-- The end of a MOD-family instruction (R170 c, d, g): `lo` the quotient, `hi` and `x[rd]` the remainder. -/
def writeModulo (rd : Reg) (q r : Word) (s : State) : Result := writeBack rd r (s.setHiLo r q)

/-- The unsigned `div` step of MOD, MODI, ADDMOD and MULMOD (R170 c, e). -/
def moduloUnsigned (rd : Reg) (t m : Word) (s : State) : Result :=
  if m.toNat = 0 then raise .divideByZero s
  else writeModulo rd (unsignedQuotient t m) (unsignedRemainder t m) s

/-- The signed `sdiv` step of SMOD and SMODI (R170 c, e). -/
def moduloSigned (rd : Reg) (a m : Int) (s : State) : Result :=
  if m = 0 then raise .divideByZero s
  else writeModulo rd (signedQuotient a m) (signedRemainder a m) s

/-- MOD (R171), unsigned. -/
def execMod (rd rs rt : Reg) (s : State) : Result := moduloUnsigned rd (s.reg rs) (s.reg rt) s

/-- SMOD (R172), signed. -/
def execSmod (rd rs rt : Reg) (s : State) : Result :=
  moduloSigned rd (s.reg rs).toInt (s.reg rt).toInt s

/-- ADDMOD (R173): Overflow on a signed overflow or a carry of the sum, before DivideByZero. -/
def execAddmod (rd rs rt ru : Reg) (s : State) : Result :=
  let a := s.reg rs
  let b := s.reg rt
  if !(fitsWord (a.toInt + b.toInt)) then raise .overflow s
  else if carryOut a b then raise .overflow s
  else moduloUnsigned rd (BitVec.ofNat 256 (a.toNat + b.toNat)) (s.reg ru) s

/-- MULMOD (R174): the product is kept modulo 2^256. -/
def execMulmod (rd rs rt ru : Reg) (s : State) : Result :=
  moduloUnsigned rd (BitVec.ofNat 256 ((s.reg rs).toNat * (s.reg rt).toNat)) (s.reg ru) s

/-- EXP (R175): `hi` and `lo` are not written. -/
def execExp (rd rs rt : Reg) (s : State) : Result :=
  writeBack rd (powWord (s.reg rs) (s.reg rt).toNat) s

/-- MODI (R176): the immediate is zero-extended. -/
def execModi (rd rs : Reg) (imm : BitVec 24) (s : State) : Result :=
  moduloUnsigned rd (s.reg rs) (zeroExtended imm) s

/-- SMODI (R177): the immediate is sign-extended. -/
def execSmodi (rd rs : Reg) (imm : BitVec 24) (s : State) : Result :=
  moduloSigned rd (s.reg rs).toInt (signedImm imm) s

/-- EXPI (R178): the base is `rs`, the exponent the immediate. -/
def execExpi (rd rs : Reg) (imm : BitVec 24) (s : State) : Result :=
  writeBack rd (powWord (s.reg rs) imm.toNat) s

end Sys2Proof.Machine
end

