-- ==== Sys2Proof/Machine/LoadStore.lean ====
section
/-! DEFINITION. Loads and stores: 43_alu_loadstore.md R160 to R164. -/

namespace Sys2Proof.Machine

/-- LB (R161): the byte is sign-extended. -/
def execLb (rd rs : Reg) (off : BitVec 24) (s : State) : Result :=
  orRaise (s.memRead (effectiveAddress (s.reg rs) off) 1) s fun bytes =>
    writeBack rd ((BitVec.ofNat 8 (beNat bytes)).signExtend 256) s

/-- LW (R162): a word is 32 bytes, big-endian. -/
def execLw (rd rs : Reg) (off : BitVec 24) (s : State) : Result :=
  orRaise (s.memRead (effectiveAddress (s.reg rs) off) 32) s fun bytes =>
    writeBack rd (BitVec.ofNat 256 (beNat bytes)) s

/-- SB (R163): the base is `rs`, the stored byte is bits 7:0 of `rt`. -/
def execSb (rs rt : Reg) (off : BitVec 24) (s : State) : Result :=
  store (effectiveAddress (s.reg rs) off) [(s.reg rt).setWidth 8] s

/-- SW (R164). -/
def execSw (rs rt : Reg) (off : BitVec 24) (s : State) : Result :=
  store (effectiveAddress (s.reg rs) off) (bytesBE (s.reg rt).toNat 32) s

end Sys2Proof.Machine
end

