-- ==== Sys2Proof/Machine/Logic.lean ====
section
/-! DEFINITION. Logic, shifts, set-on-compare and LUI: 41_alu_logic_shift_compare.md R120 to R137. None of
these instructions faults. -/

namespace Sys2Proof.Machine

/-- AND (R121). -/
def execAnd (rd rs rt : Reg) (s : State) : Result := writeBack rd (s.reg rs &&& s.reg rt) s

/-- ANDI (R122). -/
def execAndi (rd rs : Reg) (imm : BitVec 24) (s : State) : Result :=
  writeBack rd (s.reg rs &&& zeroExtended imm) s

/-- LUI (R123): it reads no register. -/
def execLui (rd : Reg) (imm : BitVec 24) (s : State) : Result := writeBack rd (upperImmediate imm) s

/-- OR (R124). -/
def execOr (rd rs rt : Reg) (s : State) : Result := writeBack rd (s.reg rs ||| s.reg rt) s

/-- ORI (R125). -/
def execOri (rd rs : Reg) (imm : BitVec 24) (s : State) : Result :=
  writeBack rd (s.reg rs ||| zeroExtended imm) s

/-- SLL (R126): the amount is the unsigned immediate. -/
def execSll (rd rs : Reg) (imm : BitVec 24) (s : State) : Result :=
  writeBack rd (shiftLeft (s.reg rs) imm.toNat) s

/-- SLLV (R127): the amount is the whole register `rt`. -/
def execSllv (rd rs rt : Reg) (s : State) : Result :=
  writeBack rd (shiftLeft (s.reg rs) (s.reg rt).toNat) s

/-- SLT (R128), signed. -/
def execSlt (rd rs rt : Reg) (s : State) : Result :=
  writeBack rd (oneIf (ltSigned (s.reg rs) (s.reg rt))) s

/-- SLTI (R129), signed, the immediate sign-extended. -/
def execSlti (rd rs : Reg) (imm : BitVec 24) (s : State) : Result :=
  writeBack rd (oneIf (decide ((s.reg rs).toInt < signedImm imm))) s

/-- SLTIU (R130), unsigned, the immediate zero-extended. -/
def execSltiu (rd rs : Reg) (imm : BitVec 24) (s : State) : Result :=
  writeBack rd (oneIf (ltUnsigned (s.reg rs) (zeroExtended imm))) s

/-- SLTU (R131), unsigned. -/
def execSltu (rd rs rt : Reg) (s : State) : Result :=
  writeBack rd (oneIf (ltUnsigned (s.reg rs) (s.reg rt))) s

/-- SRA (R132). -/
def execSra (rd rs : Reg) (imm : BitVec 24) (s : State) : Result :=
  writeBack rd (shiftRightArithmetic (s.reg rs) imm.toNat) s

/-- SRL (R133). -/
def execSrl (rd rs : Reg) (imm : BitVec 24) (s : State) : Result :=
  writeBack rd (shiftRightLogical (s.reg rs) imm.toNat) s

/-- SRLV (R134): the value is in `rs`, the amount in `rt`. -/
def execSrlv (rd rs rt : Reg) (s : State) : Result :=
  writeBack rd (shiftRightLogical (s.reg rs) (s.reg rt).toNat) s

/-- SRAV (R135): the value is in `rs`, the amount in `rt`. -/
def execSrav (rd rs rt : Reg) (s : State) : Result :=
  writeBack rd (shiftRightArithmetic (s.reg rs) (s.reg rt).toNat) s

/-- XOR (R136). -/
def execXor (rd rs rt : Reg) (s : State) : Result := writeBack rd (s.reg rs ^^^ s.reg rt) s

/-- XORI (R137): the destination is `rt`, in slot2. -/
def execXori (rs rt : Reg) (imm : BitVec 24) (s : State) : Result :=
  writeBack rt (s.reg rs ^^^ zeroExtended imm) s

end Sys2Proof.Machine
end

