-- ==== Sys2Proof/Machine/Simd.lean ====
section
/-! DEFINITION. The SIMD instructions: 48_eip616_simd.md R250 to R275. Vectors are in data memory at the addresses
the registers hold. Reads, lane computations and their faults come before the write (R250 d), and the faults in
the order of 60_exceptions.md R303. -/

namespace Sys2Proof.Machine

/-- A lane function: from two lanes to a lane, or a lane fault (R251). -/
abbrev LaneFn := (w : Nat) → BitVec w → BitVec w → Except Cause (BitVec w)

/-- Apply a lane function to the lanes in order; the first lane fault is the one reported (R303). -/
def zipLanes {w : Nat} (f : BitVec w → BitVec w → Except Cause (BitVec w)) :
    List (BitVec w) → List (BitVec w) → Except Cause (List (BitVec w))
  | a :: as, b :: bs =>
    match f a b with
    | .error c => .error c
    | .ok r =>
      match zipLanes f as bs with
      | .error c => .error c
      | .ok rs => .ok (r :: rs)
  | _, _ => .ok []

/-- `VecWrite(u(x[rd]), r); advance()`. -/
def storeLanes {w : Nat} (lb : Nat) (rd : Reg) (r : List (BitVec w)) (s : State) : Result :=
  store (s.reg rd).toNat (bytesOfLanes lb r) s

/-- The frame of a pairwise instruction (R251). -/
def pairwise (f : LaneFn) (ctx : Slot) (rd rs rt : Reg) (s : State) : Result :=
  orRaise (s.simdShape ctx) s fun sh =>
    orRaise (s.vecRead sh (s.reg rs).toNat) s fun a =>
      orRaise (s.vecRead sh (s.reg rt).toNat) s fun b =>
        orRaise (zipLanes (f sh.laneBits) a b) s fun r => storeLanes (laneBytes sh) rd r s

/-- The frame of a unary instruction (R264, R268): the vector at `x[rt]` is not read. -/
def unary (f : (w : Nat) → BitVec w → BitVec w) (ctx : Slot) (rd rs : Reg) (s : State) : Result :=
  orRaise (s.simdShape ctx) s fun sh =>
    orRaise (s.vecRead sh (s.reg rs).toNat) s fun a =>
      storeLanes (laneBytes sh) rd (a.map (f sh.laneBits)) s

/-- The lanes of `a` that the mask names; a mask lane that is not below the lane count faults (R275). -/
def permute {w : Nat} (a : List (BitVec w)) : List (BitVec w) → Except Cause (List (BitVec w))
  | [] => .ok []
  | m :: ms =>
    match a[m.toNat]? with
    | none => .error .simdFault
    | some v =>
      match permute a ms with
      | .error c => .error c
      | .ok vs => .ok (v :: vs)

/-- The lane function of SIMDADD (R252): `(u(a) + u(b)) mod 2^W`. -/
def laneAdd (w : Nat) (a b : BitVec w) : Except Cause (BitVec w) :=
  .ok (BitVec.ofNat w (a.toNat + b.toNat))

/-- The lane function of SIMDMUL (R253): `(u(a) * u(b)) mod 2^W`. -/
def laneMul (w : Nat) (a b : BitVec w) : Except Cause (BitVec w) :=
  .ok (BitVec.ofNat w (a.toNat * b.toNat))

/-- The lane function of SIMDSUB (R254): `(u(a) - u(b)) mod 2^W`. -/
def laneSub (w : Nat) (a b : BitVec w) : Except Cause (BitVec w) :=
  .ok (BitVec.ofInt w (a.toNat - b.toNat))

/-- The lane function of SIMDDIV (R255): `floor(u(a) / u(b))`. -/
def laneDiv (w : Nat) (a b : BitVec w) : Except Cause (BitVec w) :=
  if b.toNat = 0 then .error .divideByZero else .ok (unsignedQuotient a b)

/-- The lane function of SIMDSDIV (R256): the signed quotient truncated toward zero. -/
def laneSdiv (w : Nat) (a b : BitVec w) : Except Cause (BitVec w) :=
  if b.toInt = 0 then .error .divideByZero else .ok (signedQuotient a.toInt b.toInt)

/-- The lane function of SIMDMOD (R257): `u(a) mod u(b)`. -/
def laneMod (w : Nat) (a b : BitVec w) : Except Cause (BitVec w) :=
  if b.toNat = 0 then .error .divideByZero else .ok (unsignedRemainder a b)

/-- The lane function of SIMDSMOD (R258): the signed remainder with the sign of the dividend. -/
def laneSmod (w : Nat) (a b : BitVec w) : Except Cause (BitVec w) :=
  if b.toInt = 0 then .error .divideByZero else .ok (signedRemainder a.toInt b.toInt)

/-- The lane function of SIMDLT (R259): `u(a) < u(b)`. -/
def laneLt (w : Nat) (a b : BitVec w) : Except Cause (BitVec w) :=
  .ok (oneIf (ltUnsigned a b))

/-- The lane function of SIMDGT (R260): `u(a) > u(b)`. -/
def laneGt (w : Nat) (a b : BitVec w) : Except Cause (BitVec w) :=
  .ok (oneIf (ltUnsigned b a))

/-- The lane function of SIMDSLT (R261): `s(a) < s(b)`. -/
def laneSlt (w : Nat) (a b : BitVec w) : Except Cause (BitVec w) :=
  .ok (oneIf (ltSigned a b))

/-- The lane function of SIMDSGT (R262): `s(a) > s(b)`. -/
def laneSgt (w : Nat) (a b : BitVec w) : Except Cause (BitVec w) :=
  .ok (oneIf (ltSigned b a))

/-- The lane function of SIMDEQ (R263): `a = b`. -/
def laneEq (w : Nat) (a b : BitVec w) : Except Cause (BitVec w) :=
  .ok (oneIf (a == b))

/-- The lane function of SIMDAND (R265): `a & b`. -/
def laneAnd (w : Nat) (a b : BitVec w) : Except Cause (BitVec w) :=
  .ok (a &&& b)

/-- The lane function of SIMDOR (R266): `a | b`. -/
def laneOr (w : Nat) (a b : BitVec w) : Except Cause (BitVec w) :=
  .ok (a ||| b)

/-- The lane function of SIMDXOR (R267): `a ^ b`. -/
def laneXor (w : Nat) (a b : BitVec w) : Except Cause (BitVec w) :=
  .ok (a ^^^ b)

/-- The lane function of SIMDSHL (R269): the amount is the `rt` lane. -/
def laneShl (w : Nat) (a b : BitVec w) : Except Cause (BitVec w) :=
  .ok (shiftLeft a b.toNat)

/-- The lane function of SIMDSHR (R270): the amount is the `rt` lane. -/
def laneShr (w : Nat) (a b : BitVec w) : Except Cause (BitVec w) :=
  .ok (shiftRightLogical a b.toNat)

/-- The lane function of SIMDSAR (R271): the amount is the `rt` lane. -/
def laneSar (w : Nat) (a b : BitVec w) : Except Cause (BitVec w) :=
  .ok (shiftRightArithmetic a b.toNat)

/-- The lane function of SIMDROL (R272): by `u(b) mod W`. -/
def laneRol (w : Nat) (a b : BitVec w) : Except Cause (BitVec w) :=
  .ok (rotateLeft a b.toNat)

/-- The lane function of SIMDROR (R273): by `u(b) mod W`. -/
def laneRor (w : Nat) (a b : BitVec w) : Except Cause (BitVec w) :=
  .ok (rotateRight a b.toNat)

/-- SIMDADD (R252). -/
def execSimdadd (ctx : Slot) (rd rs rt : Reg) (s : State) : Result :=
  pairwise laneAdd ctx rd rs rt s

/-- SIMDMUL (R253). -/
def execSimdmul (ctx : Slot) (rd rs rt : Reg) (s : State) : Result :=
  pairwise laneMul ctx rd rs rt s

/-- SIMDSUB (R254). -/
def execSimdsub (ctx : Slot) (rd rs rt : Reg) (s : State) : Result :=
  pairwise laneSub ctx rd rs rt s

/-- SIMDDIV (R255). -/
def execSimddiv (ctx : Slot) (rd rs rt : Reg) (s : State) : Result :=
  pairwise laneDiv ctx rd rs rt s

/-- SIMDSDIV (R256). -/
def execSimdsdiv (ctx : Slot) (rd rs rt : Reg) (s : State) : Result :=
  pairwise laneSdiv ctx rd rs rt s

/-- SIMDMOD (R257). -/
def execSimdmod (ctx : Slot) (rd rs rt : Reg) (s : State) : Result :=
  pairwise laneMod ctx rd rs rt s

/-- SIMDSMOD (R258). -/
def execSimdsmod (ctx : Slot) (rd rs rt : Reg) (s : State) : Result :=
  pairwise laneSmod ctx rd rs rt s

/-- SIMDLT (R259). -/
def execSimdlt (ctx : Slot) (rd rs rt : Reg) (s : State) : Result :=
  pairwise laneLt ctx rd rs rt s

/-- SIMDGT (R260). -/
def execSimdgt (ctx : Slot) (rd rs rt : Reg) (s : State) : Result :=
  pairwise laneGt ctx rd rs rt s

/-- SIMDSLT (R261). -/
def execSimdslt (ctx : Slot) (rd rs rt : Reg) (s : State) : Result :=
  pairwise laneSlt ctx rd rs rt s

/-- SIMDSGT (R262). -/
def execSimdsgt (ctx : Slot) (rd rs rt : Reg) (s : State) : Result :=
  pairwise laneSgt ctx rd rs rt s

/-- SIMDEQ (R263). -/
def execSimdeq (ctx : Slot) (rd rs rt : Reg) (s : State) : Result :=
  pairwise laneEq ctx rd rs rt s

/-- SIMDISZERO (R264). -/
def execSimdiszero (ctx : Slot) (rd rs _rt : Reg) (s : State) : Result :=
  unary (fun _ a => oneIf (a == 0)) ctx rd rs s

/-- SIMDAND (R265). -/
def execSimdand (ctx : Slot) (rd rs rt : Reg) (s : State) : Result :=
  pairwise laneAnd ctx rd rs rt s

/-- SIMDOR (R266). -/
def execSimdor (ctx : Slot) (rd rs rt : Reg) (s : State) : Result :=
  pairwise laneOr ctx rd rs rt s

/-- SIMDXOR (R267). -/
def execSimdxor (ctx : Slot) (rd rs rt : Reg) (s : State) : Result :=
  pairwise laneXor ctx rd rs rt s

/-- SIMDNOT (R268). -/
def execSimdnot (ctx : Slot) (rd rs _rt : Reg) (s : State) : Result :=
  unary (fun _ a => ~~~a) ctx rd rs s

/-- SIMDSHL (R269). -/
def execSimdshl (ctx : Slot) (rd rs rt : Reg) (s : State) : Result :=
  pairwise laneShl ctx rd rs rt s

/-- SIMDSHR (R270). -/
def execSimdshr (ctx : Slot) (rd rs rt : Reg) (s : State) : Result :=
  pairwise laneShr ctx rd rs rt s

/-- SIMDSAR (R271). -/
def execSimdsar (ctx : Slot) (rd rs rt : Reg) (s : State) : Result :=
  pairwise laneSar ctx rd rs rt s

/-- SIMDROL (R272). -/
def execSimdrol (ctx : Slot) (rd rs rt : Reg) (s : State) : Result :=
  pairwise laneRol ctx rd rs rt s

/-- SIMDROR (R273). -/
def execSimdror (ctx : Slot) (rd rs rt : Reg) (s : State) : Result :=
  pairwise laneRor ctx rd rs rt s

/-- SIMDINDEX (R274): one lane, zero-extended; the index is checked before the read. -/
def execSimdindex (ctx : Slot) (rd rs : Reg) (idx : Slot) (s : State) : Result :=
  orRaise (s.simdShape ctx) s fun sh =>
    if sh.laneCount ≤ idx.toNat then raise .simdFault s
    else
      orRaise (s.memRead ((s.reg rs).toNat + idx.toNat * laneBytes sh) (laneBytes sh)) s fun bytes =>
        writeBack rd (BitVec.ofNat 256 (beNat bytes)) s

/-- SIMDSHUFFLE (R275). -/
def execSimdshuffle (ctx : Slot) (rd rs rt : Reg) (s : State) : Result :=
  orRaise (s.simdShape ctx) s fun sh =>
    orRaise (s.vecRead sh (s.reg rs).toNat) s fun a =>
      orRaise (s.vecRead sh (s.reg rt).toNat) s fun m =>
        orRaise (permute a m) s fun r => storeLanes (laneBytes sh) rd r s

end Sys2Proof.Machine
end

