-- ==== Sys2Proof/Machine/Subroutine.lean ====
section
/-! DEFINITION. Subroutines, static jumps and locals: 47_eip615_subroutines.md R230 to R241. A transfer of this
group has a delay slot like J (R230), and the address JUMPSUB pushes is that of its delay slot. -/

namespace Sys2Proof.Machine

/-- `callstack.push(nPC)`, then the transfer (R234, R235). -/
def callSubroutine (target : CodeAddr) (s : State) : Result :=
  orRaise (s.push s.npc) s fun t => .next (t.transfer target)

/-- `DATA[k]` with the index of R233. -/
def State.tableTarget (s : State) (rs : Reg) (n : Slot) (off : BitVec 24) : Except Cause CodeAddr :=
  s.dataEntry (tableIndex (s.reg rs).toNat n.toNat off.toNat)

/-- JUMPTO (R231). -/
def execJumpto (imm : BitVec 24) (s : State) : Result := .next (s.transfer (codeAddress imm))

/-- JUMPIF (R232): the flag is not consumed. -/
def execJumpif (imm : BitVec 24) (s : State) : Result :=
  .next (if s.compareSet then s.transfer (codeAddress imm) else s.advance)

/-- JUMPV (R233). -/
def execJumpv (rs : Reg) (n : Slot) (off : BitVec 24) (s : State) : Result :=
  orRaise (s.tableTarget rs n off) s fun target => .next (s.transfer target)

/-- JUMPSUB (R234). -/
def execJumpsub (imm : BitVec 24) (s : State) : Result := callSubroutine (codeAddress imm) s

/-- JUMPSUBV (R235): DataRangeFault is found before the push. -/
def execJumpsubv (rs : Reg) (n : Slot) (off : BitVec 24) (s : State) : Result :=
  orRaise (s.tableTarget rs n off) s fun target => callSubroutine target s

/-- RETURNSUB (R236). -/
def execReturnsub (s : State) : Result :=
  orRaise s.pop s fun popped => .next (popped.2.transfer popped.1)

/-- GETLOCAL (R237). -/
def execGetlocal (rd : Reg) (off : BitVec 24) (s : State) : Result :=
  orRaise (s.memRead (localAddress s.marker off) 32) s fun bytes =>
    writeBack rd (BitVec.ofNat 256 (beNat bytes)) s

/-- PUTLOCAL (R238). -/
def execPutlocal (rs : Reg) (off : BitVec 24) (s : State) : Result :=
  store (localAddress s.marker off) (bytesBE (s.reg rs).toNat 32) s

/-- BEGINSUB (R239): `subs.push(PC)`; the counts are carried and not used. -/
def execBeginsub (_args _returns : Slot) (s : State) : Result := .next (s.pushSub s.pc).advance

/-- BEGINDATA (R240): executing it raises `Fault(DataExecuted)`. -/
def execBegindata (s : State) : Result := raise .dataExecuted s

end Sys2Proof.Machine
end

