-- ==== Sys2Proof/Machine/Dispatch.lean ====
section
/-! DEFINITION. One arm per constructor of `Instr`: the meaning of each instruction. -/

namespace Sys2Proof.Machine

def exec (i : Instr) (s : State) : Host.Outcome State Fault Refusal :=
  match i with
  | .stop => Sys2Proof.Machine.execStop s
  | .add rd rs rt => Sys2Proof.Machine.execAdd rd rs rt s
  | .addi rs rt imm => Sys2Proof.Machine.execAddi rs rt imm s
  | .addiu rs rt imm => Sys2Proof.Machine.execAddiu rs rt imm s
  | .addu rd rs rt => Sys2Proof.Machine.execAddu rd rs rt s
  | .and rd rs rt => Sys2Proof.Machine.execAnd rd rs rt s
  | .andi rd rs imm => Sys2Proof.Machine.execAndi rd rs imm s
  | .beq rs rt off => Sys2Proof.Machine.execBeq rs rt off s
  | .bgez rs off => Sys2Proof.Machine.execBgez rs off s
  | .bgezal rs off => Sys2Proof.Machine.execBgezal rs off s
  | .bgtz rs off => Sys2Proof.Machine.execBgtz rs off s
  | .blez rs off => Sys2Proof.Machine.execBlez rs off s
  | .bltz rs off => Sys2Proof.Machine.execBltz rs off s
  | .bltzal rs off => Sys2Proof.Machine.execBltzal rs off s
  | .bne rs rt off => Sys2Proof.Machine.execBne rs rt off s
  | .div rs rt => Sys2Proof.Machine.execDiv rs rt s
  | .divu rs rt => Sys2Proof.Machine.execDivu rs rt s
  | .j target => Sys2Proof.Machine.execJ target s
  | .jal target => Sys2Proof.Machine.execJal target s
  | .jr rs => Sys2Proof.Machine.execJr rs s
  | .lb rd rs off => Sys2Proof.Machine.execLb rd rs off s
  | .lui rd imm => Sys2Proof.Machine.execLui rd imm s
  | .lw rd rs off => Sys2Proof.Machine.execLw rd rs off s
  | .mfhi rd => Sys2Proof.Machine.execMfhi rd s
  | .mflo rd => Sys2Proof.Machine.execMflo rd s
  | .mult rd rs rt => Sys2Proof.Machine.execMult rd rs rt s
  | .multu rd rs rt => Sys2Proof.Machine.execMultu rd rs rt s
  | .noop => Sys2Proof.Machine.execNoop s
  | .or rd rs rt => Sys2Proof.Machine.execOr rd rs rt s
  | .ori rd rs imm => Sys2Proof.Machine.execOri rd rs imm s
  | .sb rs rt off => Sys2Proof.Machine.execSb rs rt off s
  | .sll rd rs imm => Sys2Proof.Machine.execSll rd rs imm s
  | .sllv rd rs rt => Sys2Proof.Machine.execSllv rd rs rt s
  | .slt rd rs rt => Sys2Proof.Machine.execSlt rd rs rt s
  | .slti rd rs imm => Sys2Proof.Machine.execSlti rd rs imm s
  | .sltiu rd rs imm => Sys2Proof.Machine.execSltiu rd rs imm s
  | .sltu rd rs rt => Sys2Proof.Machine.execSltu rd rs rt s
  | .sra rd rs imm => Sys2Proof.Machine.execSra rd rs imm s
  | .srl rd rs imm => Sys2Proof.Machine.execSrl rd rs imm s
  | .srlv rd rs rt => Sys2Proof.Machine.execSrlv rd rs rt s
  | .srav rd rs rt => Sys2Proof.Machine.execSrav rd rs rt s
  | .sub rd rs rt => Sys2Proof.Machine.execSub rd rs rt s
  | .subu rd rs rt => Sys2Proof.Machine.execSubu rd rs rt s
  | .sw rs rt off => Sys2Proof.Machine.execSw rs rt off s
  | .syscall => Sys2Proof.Machine.execSyscall s
  | .xor rd rs rt => Sys2Proof.Machine.execXor rd rs rt s
  | .xori rs rt imm => Sys2Proof.Machine.execXori rs rt imm s
  | .mod rd rs rt => Sys2Proof.Machine.execMod rd rs rt s
  | .smod rd rs rt => Sys2Proof.Machine.execSmod rd rs rt s
  | .addmod rd rs rt ru => Sys2Proof.Machine.execAddmod rd rs rt ru s
  | .mulmod rd rs rt ru => Sys2Proof.Machine.execMulmod rd rs rt ru s
  | .exp rd rs rt => Sys2Proof.Machine.execExp rd rs rt s
  | .modi rd rs imm => Sys2Proof.Machine.execModi rd rs imm s
  | .smodi rd rs imm => Sys2Proof.Machine.execSmodi rd rs imm s
  | .expi rd rs imm => Sys2Proof.Machine.execExpi rd rs imm s
  | .gas rd => Sys2Proof.Machine.execGas rd s
  | .balance rd rs => Sys2Proof.Machine.execBalance rd rs s
  | .address rd => Sys2Proof.Machine.execAddress rd s
  | .origin rd => Sys2Proof.Machine.execOrigin rd s
  | .caller rd => Sys2Proof.Machine.execCaller rd s
  | .callvalue rd => Sys2Proof.Machine.execCallvalue rd s
  | .blockhash rd rs => Sys2Proof.Machine.execBlockhash rd rs s
  | .coinbase rd => Sys2Proof.Machine.execCoinbase rd s
  | .timestamp rd => Sys2Proof.Machine.execTimestamp rd s
  | .number rd => Sys2Proof.Machine.execNumber rd s
  | .difficulty rd => Sys2Proof.Machine.execDifficulty rd s
  | .gaslimit rd => Sys2Proof.Machine.execGaslimit rd s
  | .gasprice rd => Sys2Proof.Machine.execGasprice rd s
  | .calldatasize rd => Sys2Proof.Machine.execCalldatasize rd s
  | .calldataload rd rs => Sys2Proof.Machine.execCalldataload rd rs s
  | .calldatacopy rd rs rt => Sys2Proof.Machine.execCalldatacopy rd rs rt s
  | .codesize rd => Sys2Proof.Machine.execCodesize rd s
  | .codecopy rd rs rt => Sys2Proof.Machine.execCodecopy rd rs rt s
  | .extcodesize rd rs => Sys2Proof.Machine.execExtcodesize rd rs s
  | .extcodehash rd rs => Sys2Proof.Machine.execExtcodehash rd rs s
  | .extcodecopy rd rs rt ru => Sys2Proof.Machine.execExtcodecopy rd rs rt ru s
  | .returndatasize rd => Sys2Proof.Machine.execReturndatasize rd s
  | .returndatacopy rd rs rt => Sys2Proof.Machine.execReturndatacopy rd rs rt s
  | .call rd rs => Sys2Proof.Machine.execCall rd rs s
  | .callcode rd rs => Sys2Proof.Machine.execCallcode rd rs s
  | .delegatecall rd rs => Sys2Proof.Machine.execDelegatecall rd rs s
  | .staticcall rd rs => Sys2Proof.Machine.execStaticcall rd rs s
  | .ret rs rt => Sys2Proof.Machine.execRet rs rt s
  | .create2 rd rs rt ru rv => Sys2Proof.Machine.execCreate2 rd rs rt ru rv s
  | .revert rs rt => Sys2Proof.Machine.execRevert rs rt s
  | .keccak rd rs rt => Sys2Proof.Machine.execKeccak rd rs rt s
  | .log0 rs rt => Sys2Proof.Machine.execLog0 rs rt s
  | .log1 rs rt ru => Sys2Proof.Machine.execLog1 rs rt ru s
  | .log2 rs rt ru rv => Sys2Proof.Machine.execLog2 rs rt ru rv s
  | .log3 rs rt ru rv rw => Sys2Proof.Machine.execLog3 rs rt ru rv rw s
  | .log4 rs rt ru rv rw rx => Sys2Proof.Machine.execLog4 rs rt ru rv rw rx s
  | .jumpto imm => Sys2Proof.Machine.execJumpto imm s
  | .jumpif imm => Sys2Proof.Machine.execJumpif imm s
  | .jumpv rs n off => Sys2Proof.Machine.execJumpv rs n off s
  | .jumpsub imm => Sys2Proof.Machine.execJumpsub imm s
  | .jumpsubv rs n off => Sys2Proof.Machine.execJumpsubv rs n off s
  | .returnsub => Sys2Proof.Machine.execReturnsub s
  | .getlocal rd off => Sys2Proof.Machine.execGetlocal rd off s
  | .putlocal rs off => Sys2Proof.Machine.execPutlocal rs off s
  | .beginsub args returns => Sys2Proof.Machine.execBeginsub args returns s
  | .begindata => Sys2Proof.Machine.execBegindata s
  | .simdadd ctx rd rs rt => Sys2Proof.Machine.execSimdadd ctx rd rs rt s
  | .simdmul ctx rd rs rt => Sys2Proof.Machine.execSimdmul ctx rd rs rt s
  | .simdsub ctx rd rs rt => Sys2Proof.Machine.execSimdsub ctx rd rs rt s
  | .simddiv ctx rd rs rt => Sys2Proof.Machine.execSimddiv ctx rd rs rt s
  | .simdsdiv ctx rd rs rt => Sys2Proof.Machine.execSimdsdiv ctx rd rs rt s
  | .simdmod ctx rd rs rt => Sys2Proof.Machine.execSimdmod ctx rd rs rt s
  | .simdsmod ctx rd rs rt => Sys2Proof.Machine.execSimdsmod ctx rd rs rt s
  | .simdlt ctx rd rs rt => Sys2Proof.Machine.execSimdlt ctx rd rs rt s
  | .simdgt ctx rd rs rt => Sys2Proof.Machine.execSimdgt ctx rd rs rt s
  | .simdslt ctx rd rs rt => Sys2Proof.Machine.execSimdslt ctx rd rs rt s
  | .simdsgt ctx rd rs rt => Sys2Proof.Machine.execSimdsgt ctx rd rs rt s
  | .simdeq ctx rd rs rt => Sys2Proof.Machine.execSimdeq ctx rd rs rt s
  | .simdiszero ctx rd rs rt => Sys2Proof.Machine.execSimdiszero ctx rd rs rt s
  | .simdand ctx rd rs rt => Sys2Proof.Machine.execSimdand ctx rd rs rt s
  | .simdor ctx rd rs rt => Sys2Proof.Machine.execSimdor ctx rd rs rt s
  | .simdxor ctx rd rs rt => Sys2Proof.Machine.execSimdxor ctx rd rs rt s
  | .simdnot ctx rd rs rt => Sys2Proof.Machine.execSimdnot ctx rd rs rt s
  | .simdshl ctx rd rs rt => Sys2Proof.Machine.execSimdshl ctx rd rs rt s
  | .simdshr ctx rd rs rt => Sys2Proof.Machine.execSimdshr ctx rd rs rt s
  | .simdsar ctx rd rs rt => Sys2Proof.Machine.execSimdsar ctx rd rs rt s
  | .simdrol ctx rd rs rt => Sys2Proof.Machine.execSimdrol ctx rd rs rt s
  | .simdror ctx rd rs rt => Sys2Proof.Machine.execSimdror ctx rd rs rt s
  | .simdindex ctx rd rs idx => Sys2Proof.Machine.execSimdindex ctx rd rs idx s
  | .simdshuffle ctx rd rs rt => Sys2Proof.Machine.execSimdshuffle ctx rd rs rt s
  | .checkproof rd rs rt n index => Sys2Proof.Machine.execCheckproof rd rs rt n index s
  | .checktemplate rd rs rt imm => Sys2Proof.Machine.execChecktemplate rd rs rt imm s

end Sys2Proof.Machine
end

