-- ==== Sys2Proof/Machine/Step.lean ====
section
/-! DEFINITION. One step of the machine (10_state.md R13), and the placing of an instruction where the next step
fetches it. -/

namespace Sys2Proof.Machine

/-- A step: none unless RUNNING; fetch, or FetchFault; decode, or IllegalInstruction; then the instruction's
rule (R13, R303). A reserved pattern is refused (30_encoding.md R68). "The step itself changes neither" counter
(R13). -/
def step (s : State) : Host.Outcome State Fault Refusal :=
  match s.runState with
  | .running =>
    match s.fetch with
    | none => raise .fetchFault s
    | some w =>
      match decode w with
      | .ok i => exec i s
      | .error .unassignedOpcode => raise (.illegalInstruction w) s
      | .error .reservedSlots => .refused .reservedPattern
  | .stopped => .fault .notRunning
  | .returned _ => .fault .notRunning
  | .reverted _ => .fault .notRunning
  | .faulted _ => .fault .notRunning

/-- The state with this pattern in the code space at `PC`, where the next step fetches
(notes/assumptions/1.md). -/
def State.withFetchWord (s : State) (_nbits w : Nat) : State :=
  { s with program := Program.place s.program s.pc.toNat (BitVec.ofNat 44 w) }

end Sys2Proof.Machine
end

