-- ==== Sys2Proof/Machine/Launch.lean ====
section
/-! DEFINITION. Launch (70_reset_and_hazards.md R331): the record the host supplies, the state the machine takes
from it, and the boot requirements of R332 as checks of the record. A relaunch is a new launch (R336). -/

namespace Sys2Proof.Machine

/-- The launch record (R331). A register or flag that is absent is "unspecified" by the spec: the launch then
gives it the value of `State.reset`, DESIGN CHOICE, unsafe (notes/assumptions/2.md, notes/assumptions/3.md,
notes/assumptions/4.md). The byte view `CodeBytes` is `env.code`. -/
structure LaunchRecord where
  /-- `BASE`, the first address of the program, "0 in this spec's vectors" (20_memory.md R47). No rule reads it
  after launch. -/
  base : CodeAddr := 0
  /-- `Program`. -/
  program : Table Pattern := []
  /-- `DataVec`. -/
  dataVec : Table CodeAddr := []
  /-- `ENTRY`. -/
  entry : CodeAddr := 0
  /-- `MEM_SIZE` and the other OPEN parameters of R2. -/
  params : Params := resetParams
  /-- `MEM0`, by the bytes that are not 0. -/
  mem0 : Memory := []
  /-- `env`. -/
  env : Env := resetEnv
  /-- The general registers that are supplied, by number. -/
  regs : Table Word := []
  /-- `hi`, where supplied. -/
  hi : Option Word := none
  /-- `lo`, where supplied. -/
  lo : Option Word := none
  /-- `compare`, where supplied. -/
  compare : Option Bool := none
  /-- `marker`, where supplied. -/
  marker : Option Word := none
  deriving DecidableEq, Repr

/-- The registers after launch. -/
def LaunchRecord.registers (r : LaunchRecord) : Vector Word 64 :=
  Vector.ofFn fun i => (r.regs.lookup i.val).getD 0

/-- The data memory after launch: `MEM0` at the addresses below `MEM_SIZE`, in the canonical form. -/
def LaunchRecord.memory (r : LaunchRecord) : Memory :=
  Memory.writeCells [] (fun a => decide (a < r.params.memSize)) r.mem0

/-- The state the machine takes (R331; 10_state.md R26). -/
def LaunchRecord.launch (r : LaunchRecord) : State where
  regs := r.registers
  hi := r.hi.getD 0
  lo := r.lo.getD 0
  pc := r.entry
  npc := BitVec.ofNat 32 (r.entry.toNat + 4)
  compare := r.compare.getD false
  marker := r.marker.getD 0
  runState := .running
  callstack := []
  subs := []
  mem := r.memory
  log := []
  returndata := []
  env := r.env
  program := r.program
  dataVec := r.dataVec
  params := r.params
  freeCount := 0

/-- The instructions of a program that decode, by code address. -/
def listingOf (program : Table Pattern) : Listing :=
  program.filterMap fun entry =>
    match (program.lookup entry.1).map decode with
    | some (.ok i) => some (entry.1, i)
    | _ => none

/-! The boot requirements (R332) and the domain of the program (20_memory.md R47). No step tests them. -/

/-- R332 (a): `Program(ENTRY)` is defined; otherwise the first step raises FetchFault. -/
def LaunchRecord.entryDefined (r : LaunchRecord) : Bool := r.launch.fetch.isSome

/-- R332 (b): every address of the program is a multiple of 4. -/
def LaunchRecord.programAligned (r : LaunchRecord) : Bool := addressesAligned r.program

/-- The domain of `Program` is `BASE, BASE+4, ...` up to its last instruction, "and nowhere else"
(20_memory.md R47); R332 (b) follows. -/
def LaunchRecord.programUnbroken (r : LaunchRecord) : Bool := unbrokenFrom r.base r.program

/-- R332 (c), (d) for one instruction: what the record must supply if the program executes it. -/
def LaunchRecord.supplies (r : LaunchRecord) : Instr → Bool
  | .getlocal _ off | .putlocal _ off =>
    match r.marker with
    | some m => decide (m.toNat + off.toNat + 32 ≤ r.params.memSize)
    | none => false
  | .jumpif _ => r.compare.isSome
  | .jumpv _ _ _ | .jumpsubv _ _ _ => !r.dataVec.isEmpty
  | _ => true

/-- R332 (c), (d) for every instruction of the program, whether or not the run reaches it. -/
def LaunchRecord.suppliesProgram (r : LaunchRecord) : Bool :=
  (listingOf r.program).all fun entry => r.supplies entry.2

/-- R332 (f): the static validity of EIP-615 (47_eip615_subroutines.md R241). -/
def LaunchRecord.staticallyValid (r : LaunchRecord) : Bool :=
  (listingOf r.program).wellFormed r.dataVec

end Sys2Proof.Machine
end

