-- ==== Sys2Proof/Safety.lean ====
section
/-! DEFINITION. The terms claims are stated in: the invariant of the machine, and what a state has in common with
the state before it. -/

namespace Sys2Proof.Machine

/-! ### The invariant -/

/-- What holds of the state after every step (10_state.md R20, R24; 20_memory.md R40). -/
structure State.Inv (s : State) : Prop where
  /-- Data memory is in its canonical form. -/
  canonical : Memory.wf s.mem = true
  /-- Data memory has the addresses 0 to `MEM_SIZE - 1`, and `MEM_SIZE` is at most 2^256 by its type. -/
  inside : s.mem.all (fun cell => decide (cell.1 < s.params.memSize)) = true
  /-- The call stack is not deeper than a finite `CALLSTACK_MAX`. -/
  depth : ∀ n, s.params.callstackMax = some n → s.callstack.length ≤ n
  /-- A log entry has 0 to 4 topics. -/
  topics : s.log.all (fun e => decide (e.topics.length ≤ 4)) = true

/-! ### Patterns as numbers (30_encoding.md R61, R63) -/

/-- The pattern with this opcode and these values in its six slots. -/
def slotsPattern (op s1 s2 s3 s4 s5 s6 : Nat) : Pattern :=
  BitVec.ofNat 44
    (op * 2 ^ 36 + s1 * 2 ^ 30 + s2 * 2 ^ 24 + s3 * 2 ^ 18 + s4 * 2 ^ 12 + s5 * 2 ^ 6 + s6)

/-- The pattern with a 24-bit immediate in slots 3 to 6. -/
def imm24Pattern (op s1 s2 : Nat) (imm : BitVec 24) : Pattern :=
  BitVec.ofNat 44 (op * 2 ^ 36 + s1 * 2 ^ 30 + s2 * 2 ^ 24 + imm.toNat)

/-- The pattern with a 36-bit immediate in slots 1 to 6. -/
def imm36Pattern (op : Nat) (imm : BitVec 36) : Pattern := BitVec.ofNat 44 (op * 2 ^ 36 + imm.toNat)

/-- The pattern with an 18-bit immediate in slots 4 to 6. -/
def imm18Pattern (op s1 s2 s3 : Nat) (imm : BitVec 18) : Pattern :=
  BitVec.ofNat 44 (op * 2 ^ 36 + s1 * 2 ^ 30 + s2 * 2 ^ 24 + s3 * 2 ^ 18 + imm.toNat)

/-! ### What two states have in common. `s` is the state before, `t` the state after. -/

/-- Every general register reads as before. -/
def SameRegs (s t : State) : Prop := ∀ r, t.reg r = s.reg r

/-- Every general register but `rd` reads as before. -/
def SameRegsBut (rd : Reg) (s t : State) : Prop := ∀ r, r ≠ rd → t.reg r = s.reg r

/-- `rd` was written with `v`: it reads as `v`, or as 0 where it is register 0 and `ZERO_REG` makes register 0
ignore writes (00_scope.md R2). -/
def Holds (rd : Reg) (v : Word) (s t : State) : Prop :=
  t.reg rd = if s.params.zeroReg = true ∧ rd = 0 then 0 else v

/-- `hi` and `lo` are as before. -/
def SameHiLo (s t : State) : Prop := t.hi = s.hi ∧ t.lo = s.lo

/-- Every byte of data memory reads as before. -/
def SameMemory (s t : State) : Prop := ∀ a, t.byte a = s.byte a

/-- Every byte outside the `n` bytes from `lo` on reads as before. -/
def SameMemoryOutside (lo n : Nat) (s t : State) : Prop :=
  ∀ a, a < lo ∨ lo + n ≤ a → t.byte a = s.byte a

/-- The call stack, `subs`, the log and the return data are as before. -/
def SameLists (s t : State) : Prop :=
  t.callstack = s.callstack ∧ t.subs = s.subs ∧ t.log = s.log ∧ t.returndata = s.returndata

/-- The flag, the marker, the code, the jump vector and the launch parameters are as before: what no instruction
writes (10_state.md R25). -/
def SameInputs (s t : State) : Prop :=
  t.compare = s.compare ∧ t.marker = s.marker ∧ t.program = s.program ∧ t.dataVec = s.dataVec
    ∧ t.params = s.params

/-- The environment is as before, but for the gas and the balances, which a call oracle may change
(45_ethereum_env.md R180 a). -/
def SameEnvBut (s t : State) : Prop :=
  { t.env with gas := s.env.gas, balance := s.env.balance } = s.env

/-- `advance()`: the machine goes on at `nPC` (10_state.md R14). -/
def Sequential (s t : State) : Prop :=
  t.runState = s.runState ∧ t.pc = s.npc ∧ t.npc = s.npc + 4

/-- A control transfer to `target` after the delay slot (70_reset_and_hazards.md R333). -/
def TransfersTo (target : CodeAddr) (s t : State) : Prop :=
  t.runState = s.runState ∧ t.pc = s.npc ∧ t.npc = target

/-! ### The whole effect of an instruction, one predicate for each shape -/

/-- The only effect is the write of `rd`, then `advance()`. -/
structure WritesReg (rd : Reg) (v : Word) (s t : State) : Prop where
  result : Holds rd v s t
  regs : SameRegsBut rd s t
  hiLo : SameHiLo s t
  memory : SameMemory s t
  lists : SameLists s t
  env : t.env = s.env
  inputs : SameInputs s t
  counters : Sequential s t

/-- The only effect is the write of `hi` and `lo`, then `advance()`. -/
structure WritesHiLo (hi lo : Word) (s t : State) : Prop where
  hi : t.hi = hi
  lo : t.lo = lo
  regs : SameRegs s t
  memory : SameMemory s t
  lists : SameLists s t
  env : t.env = s.env
  inputs : SameInputs s t
  counters : Sequential s t

/-- The only effect is the write of `rd`, `hi` and `lo`, then `advance()`. -/
structure WritesRegHiLo (rd : Reg) (v hi lo : Word) (s t : State) : Prop where
  result : Holds rd v s t
  regs : SameRegsBut rd s t
  hi : t.hi = hi
  lo : t.lo = lo
  memory : SameMemory s t
  lists : SameLists s t
  env : t.env = s.env
  inputs : SameInputs s t
  counters : Sequential s t

/-- The only effect is the write of the bytes at `addr`, then `advance()`. -/
structure WritesMemory (addr : Nat) (bytes : List Byte) (s t : State) : Prop where
  stored : ∀ k (h : k < bytes.length), t.byte (addr + k) = bytes[k]
  memory : SameMemoryOutside addr bytes.length s t
  regs : SameRegs s t
  hiLo : SameHiLo s t
  lists : SameLists s t
  env : t.env = s.env
  inputs : SameInputs s t
  counters : Sequential s t

/-- Registers, `hi`, `lo`, memory, the environment and the inputs are as before. -/
structure SameData (s t : State) : Prop where
  regs : SameRegs s t
  hiLo : SameHiLo s t
  memory : SameMemory s t
  env : t.env = s.env
  inputs : SameInputs s t

/-- The only effect is `advance()`. -/
structure OnlyAdvances (s t : State) : Prop where
  data : SameData s t
  lists : SameLists s t
  counters : Sequential s t

/-- The only effect is the control transfer. -/
structure OnlyTransfers (target : CodeAddr) (s t : State) : Prop where
  data : SameData s t
  lists : SameLists s t
  counters : TransfersTo target s t

/-- The only effect is the write of the link register with `link`, and the control transfer. -/
structure LinksAndTransfers (link : Word) (target : CodeAddr) (s t : State) : Prop where
  result : Holds 31 link s t
  regs : SameRegsBut 31 s t
  hiLo : SameHiLo s t
  memory : SameMemory s t
  lists : SameLists s t
  env : t.env = s.env
  inputs : SameInputs s t
  counters : TransfersTo target s t

/-- The only effect is the new run state; the counters stay at the instruction. -/
structure OnlyEnds (r : RunState) (s t : State) : Prop where
  ended : t.runState = r
  data : SameData s t
  lists : SameLists s t
  pc : t.pc = s.pc
  npc : t.npc = s.npc

/-! ### Bytes and lanes of data memory -/

/-- The `n` bytes of data memory at `addr`, the lowest address first. -/
def State.bytesAt (s : State) (addr n : Nat) : List Byte :=
  (List.range n).map fun k => s.byte (addr + k)

/-- The number a byte sequence holds, read from its first byte on: the first byte is the most significant
(20_memory.md R43). -/
def bigEndian (bytes : List Byte) : Nat := bytes.foldl (fun acc b => acc * 256 + b.toNat) 0

/-- The big-endian number in the `n` bytes at `addr`. -/
def State.numberAt (s : State) (addr n : Nat) : Nat := bigEndian (s.bytesAt addr n)

/-- Lane `i` of the vector at `addr` (48_eip616_simd.md R250 c). -/
def State.lane (s : State) (sh : SimdShape) (addr i : Nat) : Nat :=
  s.numberAt (addr + i * (sh.laneBits / 8)) (sh.laneBits / 8)

/-- `n` bytes at `addr` are inside data memory; a count of 0 always is (20_memory.md R41, R42). -/
def State.Fits (s : State) (addr n : Nat) : Prop := n = 0 ∨ addr + n ≤ s.params.memSize

/-- The context names this shape (48_eip616_simd.md R250 a). -/
def State.HasShape (s : State) (ctx : Slot) (sh : SimdShape) : Prop :=
  s.params.simdCtx.lookup ctx.toNat = some sh ∧ sh.laneBits % 8 = 0 ∧ 8 ≤ sh.laneBits
    ∧ sh.laneBits ≤ 256 ∧ 1 ≤ sh.laneCount

/-- The only effect is the write of a vector at `addr`, then `advance()`: lane `i` becomes `f i`. -/
structure WritesLanes (sh : SimdShape) (addr : Nat) (f : Nat → Nat) (s t : State) : Prop where
  lanes : ∀ i, i < sh.laneCount → t.lane sh addr i = f i
  memory : SameMemoryOutside addr (sh.laneCount * (sh.laneBits / 8)) s t
  regs : SameRegs s t
  hiLo : SameHiLo s t
  lists : SameLists s t
  env : t.env = s.env
  inputs : SameInputs s t
  counters : Sequential s t

/-- The faulted state: "no register, no memory byte, no log entry, no stack and neither PC nor nPC has changed"
(60_exceptions.md R302). -/
def State.faultedWith (s : State) (c : Cause) : State := { s with runState := .faulted c }

end Sys2Proof.Machine
end

