-- ==== Sys2Proof/Certificates/Slice0/Obligations.lean ====
section
/-! DEFINITION. The statements for the provers. Those about an instruction have one form: the pattern of the
instruction, then, in the order of the rule's checks (60_exceptions.md R303), each fault with its condition, then
the next state when no check fails, by one of the effect predicates of Safety.lean, which say what is written and
that all else is as before. The values a fault carries are those of 60_exceptions.md R301
(notes/assumptions/11.md). `ZERO_REG` is either value: `Holds` says what a write of register 0 does. -/

open Sys2Proof Sys2Proof.Machine

/-! ### Integer arithmetic (40_alu_arith.md) -/

/-- ADD R101, ADDI R102, MULT R109, SUB R111 (decisions D14, D15): the exact signed result, or Overflow. -/
def Obligations.CheckedArithmetic : Prop :=
  ∀ (s : State) (rd rs rt : Reg) (imm : BitVec 24) (w : Pattern) (i : Instr) (d : Reg) (r : Int),
    (w, i, d, r) ∈
      [(slotsPattern 0x01 rd rs rt 0 0 0, Instr.add rd rs rt, rd, (s.reg rs).toInt + (s.reg rt).toInt),
       (imm24Pattern 0x02 rs rt imm, Instr.addi rs rt imm, rt, (s.reg rs).toInt + imm.toInt),
       (slotsPattern 0x19 rd rs rt 0 0 0, Instr.mult rd rs rt, rd, (s.reg rs).toInt * (s.reg rt).toInt),
       (slotsPattern 0x29 rd rs rt 0 0 0, Instr.sub rd rs rt, rd, (s.reg rs).toInt - (s.reg rt).toInt)] →
    decode w = .ok i ∧
    ((r < -(2 ^ 255) ∨ 2 ^ 255 - 1 < r) → exec i s = .next (s.faultedWith .overflow)) ∧
    ((-(2 ^ 255) ≤ r ∧ r ≤ 2 ^ 255 - 1) →
      ∃ (t : State) (v : Word), exec i s = .next t ∧ v.toInt = r ∧ WritesReg d v s t)

/-- ADDIU R103, ADDU R104, MULTU R110, SUBU R112 (decision D15): the result modulo 2^256, on every operand. -/
def Obligations.WrappingArithmetic : Prop :=
  ∀ (s : State) (rd rs rt : Reg) (imm : BitVec 24) (w : Pattern) (i : Instr) (d : Reg) (r : Int),
    (w, i, d, r) ∈
      [(imm24Pattern 0x03 rs rt imm, Instr.addiu rs rt imm, rt, (s.reg rs).toNat + imm.toInt),
       (slotsPattern 0x04 rd rs rt 0 0 0, Instr.addu rd rs rt, rd, (s.reg rs).toNat + (s.reg rt).toNat),
       (slotsPattern 0x1A rd rs rt 0 0 0, Instr.multu rd rs rt, rd, (s.reg rs).toNat * (s.reg rt).toNat),
       (slotsPattern 0x2A rd rs rt 0 0 0, Instr.subu rd rs rt, rd, (s.reg rs).toNat - (s.reg rt).toNat)] →
    decode w = .ok i ∧
    ∃ (t : State) (v : Word), exec i s = .next t ∧ (v.toNat : Int) = r % 2 ^ 256 ∧ WritesReg d v s t

/-- DIV R105 and DIVU R106 with the division law R113 (decisions D16, D17): the quotient goes to `lo`, the
remainder to `hi`; the signed remainder is smaller than the divisor and has the sign of the dividend. -/
def Obligations.Division : Prop :=
  ∀ (s : State) (rs rt : Reg),
    decode (slotsPattern 0x0F rs rt 0 0 0 0) = .ok (.div rs rt) ∧
    decode (slotsPattern 0x10 rs rt 0 0 0 0) = .ok (.divu rs rt) ∧
    (s.reg rt = 0 →
      exec (.div rs rt) s = .next (s.faultedWith .divideByZero) ∧
      exec (.divu rs rt) s = .next (s.faultedWith .divideByZero)) ∧
    (s.reg rt ≠ 0 →
      (∃ (t : State) (hi lo : Word) (q r : Int),
        exec (.div rs rt) s = .next t ∧ WritesHiLo hi lo s t ∧
        (s.reg rs).toInt = q * (s.reg rt).toInt + r ∧ |r| < |(s.reg rt).toInt| ∧
        (0 < r → 0 < (s.reg rs).toInt) ∧ (r < 0 → (s.reg rs).toInt < 0) ∧
        lo = BitVec.ofInt 256 q ∧ hi.toInt = r) ∧
      (∃ (t : State) (hi lo : Word),
        exec (.divu rs rt) s = .next t ∧ WritesHiLo hi lo s t ∧
        lo.toNat = (s.reg rs).toNat / (s.reg rt).toNat ∧
        hi.toNat = (s.reg rs).toNat % (s.reg rt).toNat))

/-- MFHI R107 and MFLO R108. -/
def Obligations.MoveFromHiLo : Prop :=
  ∀ (s : State) (rd : Reg),
    decode (slotsPattern 0x17 rd 0 0 0 0 0) = .ok (.mfhi rd) ∧
    decode (slotsPattern 0x18 rd 0 0 0 0 0) = .ok (.mflo rd) ∧
    (∃ t : State, exec (.mfhi rd) s = .next t ∧ WritesReg rd s.hi s t) ∧
    (∃ t : State, exec (.mflo rd) s = .next t ∧ WritesReg rd s.lo s t)

/-! ### Logic, shifts, compare (41_alu_logic_shift_compare.md) -/

/-- AND R121, ANDI R122, OR R124, ORI R125, XOR R136, XORI R137 (decision D18): each of the 256 bits on its own,
an immediate zero-extended. -/
def Obligations.Logic : Prop :=
  ∀ (s : State) (rd rs rt : Reg) (imm : BitVec 24) (w : Pattern) (i : Instr) (d : Reg)
    (f : Bool → Bool → Bool) (operand : Nat → Bool),
    (w, i, d, f, operand) ∈
      [(slotsPattern 0x05 rd rs rt 0 0 0, Instr.and rd rs rt, rd, Bool.and, (s.reg rt).getLsbD),
       (imm24Pattern 0x06 rd rs imm, Instr.andi rd rs imm, rd, Bool.and, imm.getLsbD),
       (slotsPattern 0x1C rd rs rt 0 0 0, Instr.or rd rs rt, rd, Bool.or, (s.reg rt).getLsbD),
       (imm24Pattern 0x1D rd rs imm, Instr.ori rd rs imm, rd, Bool.or, imm.getLsbD),
       (slotsPattern 0x2D rd rs rt 0 0 0, Instr.xor rd rs rt, rd, Bool.xor, (s.reg rt).getLsbD),
       (imm24Pattern 0x2E rs rt imm, Instr.xori rs rt imm, rt, Bool.xor, imm.getLsbD)] →
    decode w = .ok i ∧
    ∃ (t : State) (v : Word), exec i s = .next t ∧ WritesReg d v s t ∧
      ∀ k, k < 256 → v.getLsbD k = f ((s.reg rs).getLsbD k) (operand k)

/-- LUI R123, SLL R126, SLLV R127, SRL R133, SRLV R134 (decisions D18, D19): the unsigned result, for every
amount, 256 and more included; SRA R132 and SRAV R135 (decision D19): the floor of the signed quotient, for every
amount. -/
def Obligations.Shifts : Prop :=
  (∀ (s : State) (rd rs rt : Reg) (imm : BitVec 24) (w : Pattern) (i : Instr) (r : Nat),
     (w, i, r) ∈
       [(imm24Pattern 0x15 rd 0 imm, Instr.lui rd imm, imm.toNat * 2 ^ 16),
        (imm24Pattern 0x1F rd rs imm, Instr.sll rd rs imm, (s.reg rs).toNat * 2 ^ imm.toNat % 2 ^ 256),
        (slotsPattern 0x20 rd rs rt 0 0 0, Instr.sllv rd rs rt,
          (s.reg rs).toNat * 2 ^ (s.reg rt).toNat % 2 ^ 256),
        (imm24Pattern 0x26 rd rs imm, Instr.srl rd rs imm, (s.reg rs).toNat / 2 ^ imm.toNat),
        (slotsPattern 0x27 rd rs rt 0 0 0, Instr.srlv rd rs rt, (s.reg rs).toNat / 2 ^ (s.reg rt).toNat)] →
     decode w = .ok i ∧
     ∃ (t : State) (v : Word), exec i s = .next t ∧ v.toNat = r ∧ WritesReg rd v s t) ∧
  (∀ (s : State) (rd rs rt : Reg) (imm : BitVec 24) (w : Pattern) (i : Instr) (n : Nat),
     (w, i, n) ∈
       [(imm24Pattern 0x25 rd rs imm, Instr.sra rd rs imm, imm.toNat),
        (slotsPattern 0x28 rd rs rt 0 0 0, Instr.srav rd rs rt, (s.reg rt).toNat)] →
     decode w = .ok i ∧
     ∃ (t : State) (v : Word), exec i s = .next t ∧ v.toInt = (s.reg rs).toInt / 2 ^ n ∧ WritesReg rd v s t)

/-- SLT R128, SLTI R129, SLTIU R130, SLTU R131: 1 or 0 in a general register. -/
def Obligations.SetOnLessThan : Prop :=
  ∀ (s : State) (rd rs rt : Reg) (imm : BitVec 24) (w : Pattern) (i : Instr) (less : Prop),
    (w, i, less) ∈
      [(slotsPattern 0x21 rd rs rt 0 0 0, Instr.slt rd rs rt, (s.reg rs).toInt < (s.reg rt).toInt),
       (imm24Pattern 0x22 rd rs imm, Instr.slti rd rs imm, (s.reg rs).toInt < imm.toInt),
       (imm24Pattern 0x23 rd rs imm, Instr.sltiu rd rs imm, (s.reg rs).toNat < imm.toNat),
       (slotsPattern 0x24 rd rs rt 0 0 0, Instr.sltu rd rs rt, (s.reg rs).toNat < (s.reg rt).toNat)] →
    decode w = .ok i ∧
    ∃ (t : State) (v : Word), exec i s = .next t ∧ WritesReg rd v s t ∧
      (less → v = 1) ∧ (¬less → v = 0)

/-! ### Control transfer (42_alu_control.md) -/

/-- BEQ R142, BGEZ R143, BGTZ R145, BLEZ R146, BLTZ R147, BNE R149 (decision D46): taken or not, the instruction at
`nPC` is next; the target is counted from it. -/
def Obligations.Branches : Prop :=
  ∀ (s : State) (rs rt : Reg) (off : BitVec 24) (w : Pattern) (i : Instr) (taken : Prop),
    (w, i, taken) ∈
      [(imm24Pattern 0x07 rs rt off, Instr.beq rs rt off, s.reg rs = s.reg rt),
       (imm24Pattern 0x08 rs 0 off, Instr.bgez rs off, 0 ≤ (s.reg rs).toInt),
       (imm24Pattern 0x0A rs 0 off, Instr.bgtz rs off, 0 < (s.reg rs).toInt),
       (imm24Pattern 0x0B rs 0 off, Instr.blez rs off, (s.reg rs).toInt ≤ 0),
       (imm24Pattern 0x0C rs 0 off, Instr.bltz rs off, (s.reg rs).toInt < 0),
       (imm24Pattern 0x0E rs rt off, Instr.bne rs rt off, s.reg rs ≠ s.reg rt)] →
    decode w = .ok i ∧
    (taken → ∃ t : State, exec i s = .next t ∧
      OnlyTransfers (BitVec.ofInt 32 (s.npc.toNat + 4 * off.toInt)) s t) ∧
    (¬taken → ∃ t : State, exec i s = .next t ∧ OnlyAdvances s t)

/-- BGEZAL R144 and BLTZAL R148 (decisions D39, D46): `x[31] <- PC + 12`, only when taken. -/
def Obligations.LinkingBranches : Prop :=
  ∀ (s : State) (rs : Reg) (off : BitVec 24) (w : Pattern) (i : Instr) (taken : Prop),
    (w, i, taken) ∈
      [(imm24Pattern 0x09 rs 0 off, Instr.bgezal rs off, 0 ≤ (s.reg rs).toInt),
       (imm24Pattern 0x0D rs 0 off, Instr.bltzal rs off, (s.reg rs).toInt < 0)] →
    decode w = .ok i ∧
    (taken → ∃ (t : State) (link : Word), exec i s = .next t ∧
      link.toNat = (s.pc.toNat + 12) % 2 ^ 32 ∧
      LinksAndTransfers link (BitVec.ofInt 32 (s.npc.toNat + 4 * off.toInt)) s t) ∧
    (¬taken → ∃ t : State, exec i s = .next t ∧ OnlyAdvances s t)

/-- J R150, JAL R151, JR R153 (decisions D39, D45, D50): bits 31 to 28 of the target of J and JAL are those of the
delay slot's address, OR-ed with the field shifted by 2; JAL links `PC + 8`. -/
def Obligations.Jumps : Prop :=
  ∀ (s : State) (rs : Reg) (target : BitVec 36),
    decode (imm36Pattern 0x11 target) = .ok (.j target) ∧
    decode (imm36Pattern 0x12 target) = .ok (.jal target) ∧
    decode (slotsPattern 0x13 rs 0 0 0 0 0) = .ok (.jr rs) ∧
    (∃ region : CodeAddr,
      (∀ k, k < 32 → region.getLsbD k =
        ((decide (28 ≤ k) && s.npc.getLsbD k) || (decide (2 ≤ k) && target.getLsbD (k - 2)))) ∧
      (∃ t : State, exec (.j target) s = .next t ∧ OnlyTransfers region s t) ∧
      (∃ (t : State) (link : Word), exec (.jal target) s = .next t ∧
        link.toNat = (s.pc.toNat + 8) % 2 ^ 32 ∧ LinksAndTransfers link region s t)) ∧
    (∃ (t : State) (a : CodeAddr), exec (.jr rs) s = .next t ∧
      a.toNat = (s.reg rs).toNat % 2 ^ 32 ∧ OnlyTransfers a s t)

/-- STOP R141 (decision D32), NOOP R154, SYSCALL R155 (decision D23). -/
def Obligations.StopNoopSyscall : Prop :=
  ∀ s : State,
    decode (slotsPattern 0x00 0 0 0 0 0 0) = .ok .stop ∧
    decode (slotsPattern 0x1B 0 0 0 0 0 0) = .ok .noop ∧
    decode (slotsPattern 0x2C 0 0 0 0 0 0) = .ok .syscall ∧
    (∃ t : State, exec .stop s = .next t ∧ OnlyEnds .stopped s t) ∧
    (∃ t : State, exec .noop s = .next t ∧ OnlyAdvances s t) ∧
    (∃ t : State, exec .syscall s = .next t ∧ OnlyAdvances s t)

/-! ### Loads and stores (43_alu_loadstore.md) -/

/-- LB R161 and LW R162 (decisions D10, D11, D20): the byte sign-extended, the word big-endian, at the address
that wraps modulo 2^256. -/
def Obligations.Loads : Prop :=
  ∀ (s : State) (rd rs : Reg) (off : BitVec 24),
    decode (imm24Pattern 0x14 rd rs off) = .ok (.lb rd rs off) ∧
    decode (imm24Pattern 0x16 rd rs off) = .ok (.lw rd rs off) ∧
    (effectiveAddress (s.reg rs) off : Int) = ((s.reg rs).toNat + off.toInt) % 2 ^ 256 ∧
    (s.params.memSize ≤ effectiveAddress (s.reg rs) off →
      exec (.lb rd rs off) s =
        .next (s.faultedWith (.memoryFault (effectiveAddress (s.reg rs) off) 1))) ∧
    (effectiveAddress (s.reg rs) off < s.params.memSize →
      ∃ (t : State) (v : Word), exec (.lb rd rs off) s = .next t ∧ WritesReg rd v s t ∧
        v.toInt = (s.byte (effectiveAddress (s.reg rs) off)).toInt) ∧
    (s.params.memSize < effectiveAddress (s.reg rs) off + 32 →
      exec (.lw rd rs off) s =
        .next (s.faultedWith (.memoryFault (effectiveAddress (s.reg rs) off) 32))) ∧
    (effectiveAddress (s.reg rs) off + 32 ≤ s.params.memSize →
      ∃ (t : State) (v : Word), exec (.lw rd rs off) s = .next t ∧ WritesReg rd v s t ∧
        v.toNat = s.numberAt (effectiveAddress (s.reg rs) off) 32)

/-- SB R163 and SW R164 (decisions D10, D11): the bytes stored and no other; a store that faults writes none. -/
def Obligations.Stores : Prop :=
  ∀ (s : State) (rs rt : Reg) (off : BitVec 24),
    decode (imm24Pattern 0x1E rs rt off) = .ok (.sb rs rt off) ∧
    decode (imm24Pattern 0x2B rs rt off) = .ok (.sw rs rt off) ∧
    (effectiveAddress (s.reg rs) off : Int) = ((s.reg rs).toNat + off.toInt) % 2 ^ 256 ∧
    (s.params.memSize ≤ effectiveAddress (s.reg rs) off →
      exec (.sb rs rt off) s =
        .next (s.faultedWith (.memoryFault (effectiveAddress (s.reg rs) off) 1))) ∧
    (effectiveAddress (s.reg rs) off < s.params.memSize →
      ∃ (t : State) (b : Byte), exec (.sb rs rt off) s = .next t ∧
        b.toNat = (s.reg rt).toNat % 256 ∧
        WritesMemory (effectiveAddress (s.reg rs) off) [b] s t) ∧
    (s.params.memSize < effectiveAddress (s.reg rs) off + 32 →
      exec (.sw rs rt off) s =
        .next (s.faultedWith (.memoryFault (effectiveAddress (s.reg rs) off) 32))) ∧
    (effectiveAddress (s.reg rs) off + 32 ≤ s.params.memSize →
      ∃ (t : State) (bytes : List Byte), exec (.sw rs rt off) s = .next t ∧
        bytes.length = 32 ∧ bigEndian bytes = (s.reg rt).toNat ∧
        WritesMemory (effectiveAddress (s.reg rs) off) bytes s t)

/-- After a word store that fits, a word load at the same address gives the stored word, and a byte load at the
last of its 32 addresses gives its low byte, sign-extended (R164's corner case and 20_memory.md R43). -/
def Obligations.LoadAfterStore : Prop :=
  ∀ (s : State) (rd rs rt rb : Reg) (off last : BitVec 24),
    effectiveAddress (s.reg rs) off + 32 ≤ s.params.memSize →
    effectiveAddress (s.reg rb) last = effectiveAddress (s.reg rs) off + 31 →
    ∃ t : State, exec (.sw rs rt off) s = .next t ∧
      (∃ u : State, exec (.lw rd rs off) t = .next u ∧ Holds rd (s.reg rt) t u) ∧
      (∃ (u : State) (v : Word), exec (.lb rd rb last) t = .next u ∧ Holds rd v t u ∧
        v.toInt = ((s.reg rt).setWidth 8).toInt)

/-! ### The "Special EVM op" arithmetic (44_alu_evm_arith.md) -/

/-- MOD R171 and MODI R176 (decisions D16, D18, D21): unsigned; `x[rd]` and `hi` get the remainder, `lo` the
quotient. -/
def Obligations.UnsignedModulo : Prop :=
  ∀ (s : State) (rd rs rt : Reg) (imm : BitVec 24) (w : Pattern) (i : Instr) (m : Nat),
    (w, i, m) ∈
      [(slotsPattern 0x2F rd rs rt 0 0 0, Instr.mod rd rs rt, (s.reg rt).toNat),
       (imm24Pattern 0x34 rd rs imm, Instr.modi rd rs imm, imm.toNat)] →
    decode w = .ok i ∧
    (m = 0 → exec i s = .next (s.faultedWith .divideByZero)) ∧
    (m ≠ 0 → ∃ (t : State) (r q : Word), exec i s = .next t ∧ WritesRegHiLo rd r r q s t ∧
      r.toNat = (s.reg rs).toNat % m ∧ q.toNat = (s.reg rs).toNat / m)

/-- SMOD R172 and SMODI R177 (decisions D16, D17, D18, D21): signed; the remainder has the sign of the
dividend. -/
def Obligations.SignedModulo : Prop :=
  ∀ (s : State) (rd rs rt : Reg) (imm : BitVec 24) (w : Pattern) (i : Instr) (m : Int),
    (w, i, m) ∈
      [(slotsPattern 0x30 rd rs rt 0 0 0, Instr.smod rd rs rt, (s.reg rt).toInt),
       (imm24Pattern 0x35 rd rs imm, Instr.smodi rd rs imm, imm.toInt)] →
    decode w = .ok i ∧
    (m = 0 → exec i s = .next (s.faultedWith .divideByZero)) ∧
    (m ≠ 0 → ∃ (t : State) (rem quo : Word) (q r : Int),
      exec i s = .next t ∧ WritesRegHiLo rd rem rem quo s t ∧
      (s.reg rs).toInt = q * m + r ∧ |r| < |m| ∧
      (0 < r → 0 < (s.reg rs).toInt) ∧ (r < 0 → (s.reg rs).toInt < 0) ∧
      quo = BitVec.ofInt 256 q ∧ rem.toInt = r)

/-- ADDMOD R173 (decisions D14, D16, D21): a signed overflow or an unsigned carry of the sum is Overflow, and comes
before DivideByZero. MULMOD R174 (decisions D16, D21): the product modulo 2^256, then the remainder. -/
def Obligations.AddOrMultiplyThenModulo : Prop :=
  (∀ (s : State) (rd rs rt ru : Reg) (sum m : Nat) (signed : Int),
     sum = (s.reg rs).toNat + (s.reg rt).toNat → signed = (s.reg rs).toInt + (s.reg rt).toInt →
     m = (s.reg ru).toNat →
     decode (slotsPattern 0x31 rd rs rt ru 0 0) = .ok (.addmod rd rs rt ru) ∧
     ((signed < -(2 ^ 255) ∨ 2 ^ 255 - 1 < signed ∨ 2 ^ 256 ≤ sum) →
       exec (.addmod rd rs rt ru) s = .next (s.faultedWith .overflow)) ∧
     (-(2 ^ 255) ≤ signed → signed ≤ 2 ^ 255 - 1 → sum < 2 ^ 256 →
       (m = 0 → exec (.addmod rd rs rt ru) s = .next (s.faultedWith .divideByZero)) ∧
       (m ≠ 0 → ∃ (t : State) (r q : Word), exec (.addmod rd rs rt ru) s = .next t ∧
         WritesRegHiLo rd r r q s t ∧ r.toNat = sum % m ∧ q.toNat = sum / m))) ∧
  (∀ (s : State) (rd rs rt ru : Reg) (product m : Nat),
     product = (s.reg rs).toNat * (s.reg rt).toNat % 2 ^ 256 → m = (s.reg ru).toNat →
     decode (slotsPattern 0x32 rd rs rt ru 0 0) = .ok (.mulmod rd rs rt ru) ∧
     (m = 0 → exec (.mulmod rd rs rt ru) s = .next (s.faultedWith .divideByZero)) ∧
     (m ≠ 0 → ∃ (t : State) (r q : Word), exec (.mulmod rd rs rt ru) s = .next t ∧
       WritesRegHiLo rd r r q s t ∧ r.toNat = product % m ∧ q.toNat = product / m))

/-- EXP R175 and EXPI R178 (decisions D18, D21, D22): the power modulo 2^256 for every exponent a register or an
immediate holds, 0^0 = 1; `hi` and `lo` stay. -/
def Obligations.Exponentiation : Prop :=
  ∀ (s : State) (rd rs rt : Reg) (imm : BitVec 24) (w : Pattern) (i : Instr) (e : Nat),
    (w, i, e) ∈
      [(slotsPattern 0x33 rd rs rt 0 0 0, Instr.exp rd rs rt, (s.reg rt).toNat),
       (imm24Pattern 0x36 rd rs imm, Instr.expi rd rs imm, imm.toNat)] →
    decode w = .ok i ∧
    ∃ (t : State) (v : Word), exec i s = .next t ∧ v.toNat = (s.reg rs).toNat ^ e % 2 ^ 256 ∧
      WritesReg rd v s t

/-! ### The environment (45_ethereum_env.md) -/

/-- The eleven scalar reads: GAS R181, GASLIMIT R182, GASPRICE R183, ADDRESS R185, ORIGIN R186, CALLER R187,
CALLVALUE R188, COINBASE R190, TIMESTAMP R191, NUMBER R192, DIFFICULTY R193. -/
def Obligations.EnvironmentScalars : Prop :=
  ∀ (s : State) (rd : Reg) (op : Nat) (i : Instr) (v : Word),
    (op, i, v) ∈
      [(0x80, Instr.gas rd, s.env.gas), (0x8B, Instr.gaslimit rd, s.env.gaslimit),
       (0x8C, Instr.gasprice rd, s.env.gasprice), (0x82, Instr.address rd, s.env.address),
       (0x83, Instr.origin rd, s.env.origin), (0x84, Instr.caller rd, s.env.caller),
       (0x85, Instr.callvalue rd, s.env.value), (0x87, Instr.coinbase rd, s.env.coinbase),
       (0x88, Instr.timestamp rd, s.env.timestamp), (0x89, Instr.number rd, s.env.number),
       (0x8A, Instr.difficulty rd, s.env.difficulty)] →
    decode (slotsPattern op rd 0 0 0 0 0) = .ok i ∧
    ∃ t : State, exec i s = .next t ∧ WritesReg rd v s t

/-- BALANCE R184, CALLDATASIZE R194, CODESIZE R197, EXTCODESIZE R199, EXTCODEHASH R200, RETURNDATASIZE R202. The
account is the whole register (decision D29); the maps of the environment are finite tables with a default
(notes/assumptions/7.md), and a size of 2^256 or more would wrap (notes/assumptions/23.md). -/
def Obligations.EnvironmentLookups : Prop :=
  ∀ (s : State) (rd rs : Reg) (w : Pattern) (i : Instr) (v : Word),
    (w, i, v) ∈
      [(slotsPattern 0x81 rd rs 0 0 0 0, Instr.balance rd rs,
         (s.env.balance.lookup (s.reg rs).toNat).getD 0),
       (slotsPattern 0x8D rd 0 0 0 0 0, Instr.calldatasize rd, BitVec.ofNat 256 s.env.calldata.length),
       (slotsPattern 0x90 rd 0 0 0 0 0, Instr.codesize rd,
         BitVec.ofNat 256 ((s.env.code.lookup s.env.address.toNat).getD []).length),
       (slotsPattern 0x92 rd rs 0 0 0 0, Instr.extcodesize rd rs,
         BitVec.ofNat 256 ((s.env.code.lookup (s.reg rs).toNat).getD []).length),
       (slotsPattern 0x93 rd rs 0 0 0 0, Instr.extcodehash rd rs,
         (s.env.codehash.lookup (s.reg rs).toNat).getD 0),
       (slotsPattern 0x95 rd 0 0 0 0 0, Instr.returndatasize rd, BitVec.ofNat 256 s.returndata.length)] →
    decode w = .ok i ∧ ∃ t : State, exec i s = .next t ∧ WritesReg rd v s t

/-- BLOCKHASH R189 (decision D49): the block number is the big-endian number in the 8 bytes of data memory at
`x[rs]`; the map `env.blockhash` is a finite table with a default (notes/assumptions/7.md). CALLDATALOAD R195
(decisions D30, D49): 32 bytes of call data, the first the most significant, or EnvRangeFault. -/
def Obligations.BlockHashAndCallDataLoad : Prop :=
  (∀ (s : State) (rd rs : Reg),
     decode (slotsPattern 0x86 rd rs 0 0 0 0) = .ok (.blockhash rd rs) ∧
     (s.params.memSize < (s.reg rs).toNat + 8 →
       exec (.blockhash rd rs) s = .next (s.faultedWith (.memoryFault (s.reg rs).toNat 8))) ∧
     ((s.reg rs).toNat + 8 ≤ s.params.memSize →
       ∃ t : State, exec (.blockhash rd rs) s = .next t ∧
         WritesReg rd ((s.env.blockhash.lookup (s.numberAt (s.reg rs).toNat 8)).getD 0) s t)) ∧
  (∀ (s : State) (rd rs : Reg),
     decode (slotsPattern 0x8E rd rs 0 0 0 0) = .ok (.calldataload rd rs) ∧
     (s.env.calldata.length < (s.reg rs).toNat + 32 →
       exec (.calldataload rd rs) s = .next (s.faultedWith (.envRangeFault (s.reg rs).toNat 32))) ∧
     ((s.reg rs).toNat + 32 ≤ s.env.calldata.length →
       ∃ (t : State) (v : Word), exec (.calldataload rd rs) s = .next t ∧ WritesReg rd v s t ∧
         v.toNat = bigEndian ((s.env.calldata.drop (s.reg rs).toNat).take 32)))

/-- CALLDATACOPY R196, CODECOPY R198, EXTCODECOPY R201, RETURNDATACOPY R203 (decisions D8, D30): `n` bytes at offset
`o` of the string go to data memory at `d`; EnvRangeFault before MemoryFault; a length of 0 faults nowhere. -/
def Obligations.CopiesToMemory : Prop :=
  ∀ (s : State) (rd rs rt ru : Reg) (w : Pattern) (i : Instr) (bytes : List Byte) (d o n : Nat),
    d = (s.reg rd).toNat → o = (s.reg rs).toNat → n = (s.reg rt).toNat →
    (w, i, bytes) ∈
      [(slotsPattern 0x8F rd rs rt 0 0 0, Instr.calldatacopy rd rs rt, s.env.calldata),
       (slotsPattern 0x91 rd rs rt 0 0 0, Instr.codecopy rd rs rt,
         (s.env.code.lookup s.env.address.toNat).getD []),
       (slotsPattern 0x94 rd rs rt ru 0 0, Instr.extcodecopy rd rs rt ru,
         (s.env.code.lookup (s.reg ru).toNat).getD []),
       (slotsPattern 0x96 rd rs rt 0 0 0, Instr.returndatacopy rd rs rt, s.returndata)] →
    decode w = .ok i ∧
    (0 < n → bytes.length < o + n → exec i s = .next (s.faultedWith (.envRangeFault o n))) ∧
    (0 < n → o + n ≤ bytes.length → s.params.memSize < d + n →
      exec i s = .next (s.faultedWith (.memoryFault d n))) ∧
    ((n = 0 ∨ (o + n ≤ bytes.length ∧ d + n ≤ s.params.memSize)) →
      ∃ (t : State) (copied : List Byte), exec i s = .next t ∧ copied.length = n ∧
        (∀ k, k < n → copied[k]? = bytes[o + k]?) ∧ WritesMemory d copied s t)

/-! ### Calls, ends of a run, hashing, logs (46_ethereum_calls_logs.md) -/

/-- CALL R211 and CALLCODE R212 in the frame of R210: the checks in order, then the oracle's answer. The oracle is
an opaque constant applied to a counter (notes/assumptions/15.md), and its answer gives the bytes of memory, the
gas and the balances (notes/assumptions/16.md): the model's form of an OPEN relation. That it answers on every
argument, so that the call completes, is the model's choice (notes/assumptions/28.md). -/
def Obligations.MessageCalls : Prop :=
  ∀ (s : State) (rd rs : Reg) (op : Nat) (i : Instr) (kind : CallKind) (ans : CallAnswer)
    (p inOff inSize outOff outSize : Nat),
    (op, i, kind) ∈
      [(0x97, Instr.call rd rs, CallKind.call), (0x98, Instr.callcode rd rs, CallKind.callcode)] →
    ans = Config.callOracle s.freeCount kind (s.reg rs) s.mem s.env s.returndata →
    p = (s.reg rs).toNat → inOff = s.numberAt (p + 96) 32 → inSize = s.numberAt (p + 128) 32 →
    outOff = s.numberAt (p + 160) 32 → outSize = s.numberAt (p + 192) 32 →
    decode (slotsPattern op rd rs 0 0 0 0) = .ok i ∧
    (s.params.memSize < p + 224 → exec i s = .next (s.faultedWith (.memoryFault p 224))) ∧
    (p + 224 ≤ s.params.memSize → ¬s.Fits inOff inSize →
      exec i s = .next (s.faultedWith (.memoryFault inOff inSize))) ∧
    (p + 224 ≤ s.params.memSize → s.Fits inOff inSize → ¬s.Fits outOff outSize →
      exec i s = .next (s.faultedWith (.memoryFault outOff outSize))) ∧
    (p + 224 ≤ s.params.memSize → s.Fits inOff inSize → s.Fits outOff outSize →
      ∃ t : State, exec i s = .next t ∧
        Holds rd (if ans.ok = true then 1 else 0) s t ∧ SameRegsBut rd s t ∧ SameHiLo s t ∧
        SameMemoryOutside outOff outSize s t ∧
        (∀ a, outOff ≤ a → a < outOff + outSize →
          t.byte a = (ans.writes.reverse.lookup a).getD (s.byte a)) ∧
        t.returndata = ans.returndata ∧ t.env.gas = ans.gas ∧ t.env.balance = ans.balance ∧
        SameEnvBut s t ∧ t.callstack = s.callstack ∧ t.subs = s.subs ∧ t.log = s.log ∧
        SameInputs s t ∧ Sequential s t)

/-- DELEGATECALL R213 and STATICCALL R214 in the frame of R210: no layout, no fault and no bound on where memory
may change is fixed (the oracle's form: notes/assumptions/15.md, notes/assumptions/16.md). That they complete on every
state and operand is the model's choice of a total oracle, where R213 says "the oracle's domain decides"
(notes/assumptions/28.md). -/
def Obligations.OpenCalls : Prop :=
  ∀ (s : State) (rd rs : Reg) (op : Nat) (i : Instr) (kind : CallKind) (ans : CallAnswer),
    (op, i, kind) ∈
      [(0x99, Instr.delegatecall rd rs, CallKind.delegatecall),
       (0x9A, Instr.staticcall rd rs, CallKind.staticcall)] →
    ans = Config.callOracle s.freeCount kind (s.reg rs) s.mem s.env s.returndata →
    decode (slotsPattern op rd rs 0 0 0 0) = .ok i ∧
    ∃ t : State, exec i s = .next t ∧
      Holds rd (if ans.ok = true then 1 else 0) s t ∧ SameRegsBut rd s t ∧ SameHiLo s t ∧
      (∀ a, a < s.params.memSize → t.byte a = (ans.writes.reverse.lookup a).getD (s.byte a)) ∧
      (∀ a, s.params.memSize ≤ a → t.byte a = s.byte a) ∧
      t.returndata = ans.returndata ∧ t.env.gas = ans.gas ∧ t.env.balance = ans.balance ∧
      SameEnvBut s t ∧ t.callstack = s.callstack ∧ t.subs = s.subs ∧ t.log = s.log ∧
      SameInputs s t ∧ Sequential s t

/-- CREATE2 R216 in the frame of R210 (the oracle's form: notes/assumptions/16.md, notes/assumptions/17.md): memory
is not changed. That it completes on every state and operand is the model's choice of a total oracle
(notes/assumptions/28.md). -/
def Obligations.Create2 : Prop :=
  ∀ (s : State) (rd rs rt ru rv : Reg) (ans : CreateAnswer),
    ans = Config.createOracle s.freeCount ⟨s.reg rs, s.reg rt, s.reg ru, s.reg rv⟩ s.mem s.env
      s.returndata →
    decode (slotsPattern 0x9C rd rs rt ru rv 0) = .ok (.create2 rd rs rt ru rv) ∧
    ∃ t : State, exec (.create2 rd rs rt ru rv) s = .next t ∧
      Holds rd ans.result s t ∧ SameRegsBut rd s t ∧ SameHiLo s t ∧ SameMemory s t ∧
      t.returndata = ans.returndata ∧ t.env.gas = ans.gas ∧ t.env.balance = ans.balance ∧
      SameEnvBut s t ∧ t.callstack = s.callstack ∧ t.subs = s.subs ∧ t.log = s.log ∧
      SameInputs s t ∧ Sequential s t

/-- RETURN R215 and REVERT R217 (decisions D32, D48): the run ends with the bytes of memory; the counters stay. -/
def Obligations.ReturnAndRevert : Prop :=
  ∀ (s : State) (rs rt : Reg) (op : Nat) (i : Instr) (ended : List Byte → RunState) (a n : Nat),
    (op, i, ended) ∈
      [(0x9B, Instr.ret rs rt, RunState.returned), (0x9D, Instr.revert rs rt, RunState.reverted)] →
    a = (s.reg rs).toNat → n = (s.reg rt).toNat →
    decode (slotsPattern op rs rt 0 0 0 0) = .ok i ∧
    (¬s.Fits a n → exec i s = .next (s.faultedWith (.memoryFault a n))) ∧
    (s.Fits a n → ∃ t : State, exec i s = .next t ∧ OnlyEnds (ended (s.bytesAt a n)) s t)

/-- KECCAK R218 (decision D37): the bytes from `x[rs]` up to and not including `x[rt]`; InvalidRange before
MemoryFault. The function is the opaque constant of notes/assumptions/19.md. -/
def Obligations.KeccakHash : Prop :=
  ∀ (s : State) (rd rs rt : Reg) (a b : Nat), a = (s.reg rs).toNat → b = (s.reg rt).toNat →
    decode (slotsPattern 0x9E rd rs rt 0 0 0) = .ok (.keccak rd rs rt) ∧
    (b ≤ a → exec (.keccak rd rs rt) s = .next (s.faultedWith .invalidRange)) ∧
    (a < b → s.params.memSize < b →
      exec (.keccak rd rs rt) s = .next (s.faultedWith (.memoryFault a (b - a)))) ∧
    (a < b → b ≤ s.params.memSize →
      ∃ t : State, exec (.keccak rd rs rt) s = .next t ∧
        WritesReg rd (Config.keccak256 (s.bytesAt a (b - a))) s t)

/-- LOG0 R220 to LOG4 R224 with R219 (decision D38): the topics in operand order, then the bytes of memory. -/
def Obligations.Logs : Prop :=
  ∀ (s : State) (rs rt ru rv rw rx : Reg) (w : Pattern) (i : Instr) (topics : List Word) (a n : Nat),
    (w, i, topics) ∈
      [(slotsPattern 0x9F rs rt 0 0 0 0, Instr.log0 rs rt, []),
       (slotsPattern 0xA0 rs rt ru 0 0 0, Instr.log1 rs rt ru, [s.reg ru]),
       (slotsPattern 0xA1 rs rt ru rv 0 0, Instr.log2 rs rt ru rv, [s.reg ru, s.reg rv]),
       (slotsPattern 0xA2 rs rt ru rv rw 0, Instr.log3 rs rt ru rv rw, [s.reg ru, s.reg rv, s.reg rw]),
       (slotsPattern 0xA3 rs rt ru rv rw rx, Instr.log4 rs rt ru rv rw rx,
         [s.reg ru, s.reg rv, s.reg rw, s.reg rx])] →
    a = (s.reg rs).toNat → n = (s.reg rt).toNat →
    decode w = .ok i ∧
    (¬s.Fits a n → exec i s = .next (s.faultedWith (.memoryFault a n))) ∧
    (s.Fits a n → ∃ t : State, exec i s = .next t ∧
      t.log = s.log ++ [⟨topics, s.bytesAt a n⟩] ∧ SameData s t ∧ t.callstack = s.callstack ∧
      t.subs = s.subs ∧ t.returndata = s.returndata ∧ Sequential s t)

/-! ### Subroutines and static jumps (47_eip615_subroutines.md) -/

/-- JUMPTO R231 and JUMPIF R232 (decisions D24, D25): an unscaled 24-bit address after the delay slot; the flag
stays. JUMPV R233 (decisions D24, D27): an index of `n` or more selects the last of the `n` entries; an index outside
`DataVec`, -1 included, is DataRangeFault. -/
def Obligations.StaticJumpsAndTable : Prop :=
  (∀ (s : State) (imm : BitVec 24) (a : CodeAddr), a.toNat = imm.toNat →
     decode (imm24Pattern 0xAA 0 0 imm) = .ok (.jumpto imm) ∧
     decode (imm24Pattern 0xAB 0 0 imm) = .ok (.jumpif imm) ∧
     (∃ t : State, exec (.jumpto imm) s = .next t ∧ OnlyTransfers a s t) ∧
     (s.compare = true → ∃ t : State, exec (.jumpif imm) s = .next t ∧ OnlyTransfers a s t) ∧
     (s.compare = false → ∃ t : State, exec (.jumpif imm) s = .next t ∧ OnlyAdvances s t)) ∧
  (∀ (s : State) (rs : Reg) (n : Slot) (off : BitVec 24) (k : Int),
     k = (if n.toNat ≤ (s.reg rs).toNat then (off.toNat : Int) + n.toNat - 1
       else (off.toNat : Int) + (s.reg rs).toNat) →
     decode (imm24Pattern 0xAC rs n.toNat off) = .ok (.jumpv rs n off) ∧
     ((k < 0 ∨ s.dataVec.lookup k.toNat = none) →
       exec (.jumpv rs n off) s = .next (s.faultedWith (.dataRangeFault k))) ∧
     (∀ a, 0 ≤ k → s.dataVec.lookup k.toNat = some a →
       ∃ t : State, exec (.jumpv rs n off) s = .next t ∧ OnlyTransfers a s t))

/-- JUMPSUB R234 and JUMPSUBV R235 (decisions D24, D26, D27): the old `nPC` is pushed; DataRangeFault comes before
the push, CallStackOverflow only with a finite `CALLSTACK_MAX`. RETURNSUB R236 (decisions D24, D26): the popped address
is the target, after the delay slot. -/
def Obligations.SubroutineCallsAndReturn : Prop :=
  (∀ (s : State) (rs : Reg) (n : Slot) (off imm : BitVec 24) (k : Int) (w : Pattern) (i : Instr)
     (target : Option CodeAddr),
     k = (if n.toNat ≤ (s.reg rs).toNat then (off.toNat : Int) + n.toNat - 1
       else (off.toNat : Int) + (s.reg rs).toNat) →
     (w, i, target) ∈
       [(imm24Pattern 0xAD 0 0 imm, Instr.jumpsub imm, some (BitVec.ofNat 32 imm.toNat)),
        (imm24Pattern 0xAE rs n.toNat off, Instr.jumpsubv rs n off,
          if k < 0 then none else s.dataVec.lookup k.toNat)] →
     decode w = .ok i ∧
     (target = none → exec i s = .next (s.faultedWith (.dataRangeFault k))) ∧
     (∀ a m, target = some a → s.params.callstackMax = some m → m ≤ s.callstack.length →
       exec i s = .next (s.faultedWith .callStackOverflow)) ∧
     (∀ a, target = some a → (∀ m, s.params.callstackMax = some m → s.callstack.length < m) →
       ∃ t : State, exec i s = .next t ∧ t.callstack = s.npc :: s.callstack ∧ SameData s t ∧
         t.subs = s.subs ∧ t.log = s.log ∧ t.returndata = s.returndata ∧ TransfersTo a s t)) ∧
  (∀ s : State,
     decode (slotsPattern 0xAF 0 0 0 0 0 0) = .ok .returnsub ∧
     (s.callstack = [] → exec .returnsub s = .next (s.faultedWith .callStackUnderflow)) ∧
     (∀ a rest, s.callstack = a :: rest →
       ∃ t : State, exec .returnsub s = .next t ∧ t.callstack = rest ∧ SameData s t ∧
         t.subs = s.subs ∧ t.log = s.log ∧ t.returndata = s.returndata ∧ TransfersTo a s t))

/-- GETLOCAL R237 and PUTLOCAL R238 (decisions D25, D44): a word at `marker` plus the unsigned, unscaled offset. -/
def Obligations.Locals : Prop :=
  ∀ (s : State) (r : Reg) (off : BitVec 24),
    decode (imm24Pattern 0xB0 r 0 off) = .ok (.getlocal r off) ∧
    decode (imm24Pattern 0xB1 r 0 off) = .ok (.putlocal r off) ∧
    localAddress s.marker off = (s.marker.toNat + off.toNat) % 2 ^ 256 ∧
    (s.params.memSize < localAddress s.marker off + 32 →
      exec (.getlocal r off) s = .next (s.faultedWith (.memoryFault (localAddress s.marker off) 32)) ∧
      exec (.putlocal r off) s = .next (s.faultedWith (.memoryFault (localAddress s.marker off) 32))) ∧
    (localAddress s.marker off + 32 ≤ s.params.memSize →
      (∃ (t : State) (v : Word), exec (.getlocal r off) s = .next t ∧ WritesReg r v s t ∧
        v.toNat = s.numberAt (localAddress s.marker off) 32) ∧
      (∃ (t : State) (bytes : List Byte), exec (.putlocal r off) s = .next t ∧
        bytes.length = 32 ∧ bigEndian bytes = (s.reg r).toNat ∧
        WritesMemory (localAddress s.marker off) bytes s t))

/-- BEGINSUB R239 appends its own address, whatever its two fields; executing BEGINDATA R240 (decision D27) is
DataExecuted: the instruction's own effect. -/
def Obligations.Declarations : Prop :=
  ∀ (s : State) (args returns : Slot),
    decode (slotsPattern 0xB2 0 0 0 0 args.toNat returns.toNat) = .ok (.beginsub args returns) ∧
    decode (slotsPattern 0xB3 0 0 0 0 0 0) = .ok .begindata ∧
    (∃ t : State, exec (.beginsub args returns) s = .next t ∧ t.subs = s.subs ++ [s.pc] ∧
      SameData s t ∧ t.callstack = s.callstack ∧ t.log = s.log ∧ t.returndata = s.returndata ∧
      Sequential s t) ∧
    exec .begindata s = .next (s.faultedWith .dataExecuted)

/-! ### SIMD (48_eip616_simd.md) -/

/-- The pairwise instructions without a lane fault, a shift or a rotate: SIMDADD R252, SIMDMUL R253, SIMDSUB R254,
SIMDLT R259, SIMDGT R260, SIMDSLT R261, SIMDSGT R262, SIMDEQ R263, SIMDAND R265, SIMDOR R266, SIMDXOR R267
(decision D40). Lanes as numbers; every source lane is read before a lane is written, so the destination may
overlap a source. -/
def Obligations.SimdPairwise : Prop :=
  ∀ (s : State) (ctx : Slot) (rd rs rt : Reg) (op : Nat) (i : Instr) (f : Nat → Nat → Nat → Nat),
    (op, i, f) ∈
      [(0xB4, Instr.simdadd ctx rd rs rt, fun w a b => (a + b) % 2 ^ w),
       (0xB5, Instr.simdmul ctx rd rs rt, fun w a b => a * b % 2 ^ w),
       (0xB6, Instr.simdsub ctx rd rs rt, fun w a b => (2 ^ w + a - b) % 2 ^ w),
       (0xBB, Instr.simdlt ctx rd rs rt, fun _ a b => if a < b then 1 else 0),
       (0xBC, Instr.simdgt ctx rd rs rt, fun _ a b => if b < a then 1 else 0),
       (0xBD, Instr.simdslt ctx rd rs rt,
         fun w a b => if (BitVec.ofNat w a).toInt < (BitVec.ofNat w b).toInt then 1 else 0),
       (0xBE, Instr.simdsgt ctx rd rs rt,
         fun w a b => if (BitVec.ofNat w b).toInt < (BitVec.ofNat w a).toInt then 1 else 0),
       (0xBF, Instr.simdeq ctx rd rs rt, fun _ a b => if a = b then 1 else 0),
       (0xC1, Instr.simdand ctx rd rs rt, fun _ a b => a &&& b),
       (0xC2, Instr.simdor ctx rd rs rt, fun _ a b => a ||| b),
       (0xC3, Instr.simdxor ctx rd rs rt, fun _ a b => a ^^^ b)] →
    decode (slotsPattern op ctx.toNat rd rs rt 0 0) = .ok i ∧
    ((∀ sh, ¬s.HasShape ctx sh) → exec i s = .next (s.faultedWith .simdFault)) ∧
    (∀ (sh : SimdShape) (n a b d : Nat), s.HasShape ctx sh → n = sh.laneCount * (sh.laneBits / 8) →
      a = (s.reg rs).toNat → b = (s.reg rt).toNat → d = (s.reg rd).toNat →
      (s.params.memSize < a + n → exec i s = .next (s.faultedWith (.memoryFault a n))) ∧
      (a + n ≤ s.params.memSize → s.params.memSize < b + n →
        exec i s = .next (s.faultedWith (.memoryFault b n))) ∧
      (a + n ≤ s.params.memSize → b + n ≤ s.params.memSize → s.params.memSize < d + n →
        exec i s = .next (s.faultedWith (.memoryFault d n))) ∧
      (a + n ≤ s.params.memSize → b + n ≤ s.params.memSize → d + n ≤ s.params.memSize →
        ∃ t : State, exec i s = .next t ∧
          WritesLanes sh d (fun j => f sh.laneBits (s.lane sh a j) (s.lane sh b j)) s t))

/-- The shifts and rotates: SIMDSHL R269, SIMDSHR R270, SIMDSAR R271, SIMDROL R272, SIMDROR R273 (decisions D19,
D40). The amount is the `rt` lane; a shift by the lane width or more shifts everything out, and a rotate takes the
amount modulo the width. -/
def Obligations.SimdShifts : Prop :=
  ∀ (s : State) (ctx : Slot) (rd rs rt : Reg) (op : Nat) (i : Instr) (f : Nat → Nat → Nat → Nat),
    (op, i, f) ∈
      [(0xC5, Instr.simdshl ctx rd rs rt, fun w a b => a * 2 ^ b % 2 ^ w),
       (0xC6, Instr.simdshr ctx rd rs rt, fun _ a b => a / 2 ^ b),
       (0xC7, Instr.simdsar ctx rd rs rt,
         fun w a b => (BitVec.ofInt w ((BitVec.ofNat w a).toInt / 2 ^ b)).toNat),
       (0xC8, Instr.simdrol ctx rd rs rt,
         fun w a b => a * 2 ^ (b % w) % 2 ^ w + a / 2 ^ (w - b % w)),
       (0xC9, Instr.simdror ctx rd rs rt,
         fun w a b => a / 2 ^ (b % w) + a * 2 ^ (w - b % w) % 2 ^ w)] →
    decode (slotsPattern op ctx.toNat rd rs rt 0 0) = .ok i ∧
    ((∀ sh, ¬s.HasShape ctx sh) → exec i s = .next (s.faultedWith .simdFault)) ∧
    (∀ (sh : SimdShape) (n a b d : Nat), s.HasShape ctx sh → n = sh.laneCount * (sh.laneBits / 8) →
      a = (s.reg rs).toNat → b = (s.reg rt).toNat → d = (s.reg rd).toNat →
      (s.params.memSize < a + n → exec i s = .next (s.faultedWith (.memoryFault a n))) ∧
      (a + n ≤ s.params.memSize → s.params.memSize < b + n →
        exec i s = .next (s.faultedWith (.memoryFault b n))) ∧
      (a + n ≤ s.params.memSize → b + n ≤ s.params.memSize → s.params.memSize < d + n →
        exec i s = .next (s.faultedWith (.memoryFault d n))) ∧
      (a + n ≤ s.params.memSize → b + n ≤ s.params.memSize → d + n ≤ s.params.memSize →
        ∃ t : State, exec i s = .next t ∧
          WritesLanes sh d (fun j => f sh.laneBits (s.lane sh a j) (s.lane sh b j)) s t))

/-- SIMDDIV R255, SIMDSDIV R256, SIMDMOD R257, SIMDSMOD R258 (decisions D16, D17, D40): a zero lane divisor faults the
whole instruction, after the reads and before the write; a signed quotient is truncated toward zero, and a signed
remainder has the sign of the dividend. -/
def Obligations.SimdDivision : Prop :=
  ∀ (s : State) (ctx : Slot) (rd rs rt : Reg) (op : Nat) (i : Instr) (f : Nat → Nat → Nat → Nat),
    (op, i, f) ∈
      [(0xB7, Instr.simddiv ctx rd rs rt, fun _ a b => a / b),
       (0xB8, Instr.simdsdiv ctx rd rs rt,
         fun w a b => ((BitVec.ofNat w a).sdiv (BitVec.ofNat w b)).toNat),
       (0xB9, Instr.simdmod ctx rd rs rt, fun _ a b => a % b),
       (0xBA, Instr.simdsmod ctx rd rs rt,
         fun w a b => ((BitVec.ofNat w a).srem (BitVec.ofNat w b)).toNat)] →
    decode (slotsPattern op ctx.toNat rd rs rt 0 0) = .ok i ∧
    ((∀ sh, ¬s.HasShape ctx sh) → exec i s = .next (s.faultedWith .simdFault)) ∧
    (∀ (sh : SimdShape) (n a b d : Nat), s.HasShape ctx sh → n = sh.laneCount * (sh.laneBits / 8) →
      a = (s.reg rs).toNat → b = (s.reg rt).toNat → d = (s.reg rd).toNat →
      (s.params.memSize < a + n → exec i s = .next (s.faultedWith (.memoryFault a n))) ∧
      (a + n ≤ s.params.memSize → s.params.memSize < b + n →
        exec i s = .next (s.faultedWith (.memoryFault b n))) ∧
      (a + n ≤ s.params.memSize → b + n ≤ s.params.memSize →
        ((∃ j, j < sh.laneCount ∧ s.lane sh b j = 0) →
          exec i s = .next (s.faultedWith .divideByZero)) ∧
        ((∀ j, j < sh.laneCount → s.lane sh b j ≠ 0) → s.params.memSize < d + n →
          exec i s = .next (s.faultedWith (.memoryFault d n))) ∧
        ((∀ j, j < sh.laneCount → s.lane sh b j ≠ 0) → d + n ≤ s.params.memSize →
          ∃ t : State, exec i s = .next t ∧
            WritesLanes sh d (fun j => f sh.laneBits (s.lane sh a j) (s.lane sh b j)) s t)))

/-- SIMDISZERO R264 and SIMDNOT R268 (decision D40): unary; `x[rt]` is not read, whatever it holds. -/
def Obligations.SimdUnary : Prop :=
  ∀ (s : State) (ctx : Slot) (rd rs rt : Reg) (op : Nat) (i : Instr) (f : Nat → Nat → Nat),
    (op, i, f) ∈
      [(0xC0, Instr.simdiszero ctx rd rs rt, fun _ a => if a = 0 then 1 else 0),
       (0xC4, Instr.simdnot ctx rd rs rt, fun w a => 2 ^ w - 1 - a)] →
    decode (slotsPattern op ctx.toNat rd rs rt 0 0) = .ok i ∧
    ((∀ sh, ¬s.HasShape ctx sh) → exec i s = .next (s.faultedWith .simdFault)) ∧
    (∀ (sh : SimdShape) (n a d : Nat), s.HasShape ctx sh → n = sh.laneCount * (sh.laneBits / 8) →
      a = (s.reg rs).toNat → d = (s.reg rd).toNat →
      (s.params.memSize < a + n → exec i s = .next (s.faultedWith (.memoryFault a n))) ∧
      (a + n ≤ s.params.memSize → s.params.memSize < d + n →
        exec i s = .next (s.faultedWith (.memoryFault d n))) ∧
      (a + n ≤ s.params.memSize → d + n ≤ s.params.memSize →
        ∃ t : State, exec i s = .next t ∧
          WritesLanes sh d (fun j => f sh.laneBits (s.lane sh a j)) s t))

/-- SIMDINDEX R274 (decisions D40, D41): one lane, zero-extended, and only that lane is read; the index is checked
before the read. -/
def Obligations.SimdIndex : Prop :=
  ∀ (s : State) (ctx idx : Slot) (rd rs : Reg),
    decode (slotsPattern 0xCA ctx.toNat rd rs idx.toNat 0 0) = .ok (.simdindex ctx rd rs idx) ∧
    ((∀ sh, ¬s.HasShape ctx sh) →
      exec (.simdindex ctx rd rs idx) s = .next (s.faultedWith .simdFault)) ∧
    (∀ (sh : SimdShape) (a : Nat), s.HasShape ctx sh →
      a = (s.reg rs).toNat + idx.toNat * (sh.laneBits / 8) →
      (sh.laneCount ≤ idx.toNat →
        exec (.simdindex ctx rd rs idx) s = .next (s.faultedWith .simdFault)) ∧
      (idx.toNat < sh.laneCount → s.params.memSize < a + sh.laneBits / 8 →
        exec (.simdindex ctx rd rs idx) s =
          .next (s.faultedWith (.memoryFault a (sh.laneBits / 8)))) ∧
      (idx.toNat < sh.laneCount → a + sh.laneBits / 8 ≤ s.params.memSize →
        ∃ (t : State) (v : Word), exec (.simdindex ctx rd rs idx) s = .next t ∧
          v.toNat = s.lane sh (s.reg rs).toNat idx.toNat ∧ WritesReg rd v s t))

/-- SIMDSHUFFLE R275 (decision D40): lane `j` of the result is the source lane whose number is mask lane `j`; a mask
lane of the lane count or more faults after the reads and before the write. -/
def Obligations.SimdShuffle : Prop :=
  ∀ (s : State) (ctx : Slot) (rd rs rt : Reg),
    decode (slotsPattern 0xCC ctx.toNat rd rs rt 0 0) = .ok (.simdshuffle ctx rd rs rt) ∧
    ((∀ sh, ¬s.HasShape ctx sh) →
      exec (.simdshuffle ctx rd rs rt) s = .next (s.faultedWith .simdFault)) ∧
    (∀ (sh : SimdShape) (n a m d : Nat), s.HasShape ctx sh → n = sh.laneCount * (sh.laneBits / 8) →
      a = (s.reg rs).toNat → m = (s.reg rt).toNat → d = (s.reg rd).toNat →
      (s.params.memSize < a + n →
        exec (.simdshuffle ctx rd rs rt) s = .next (s.faultedWith (.memoryFault a n))) ∧
      (a + n ≤ s.params.memSize → s.params.memSize < m + n →
        exec (.simdshuffle ctx rd rs rt) s = .next (s.faultedWith (.memoryFault m n))) ∧
      (a + n ≤ s.params.memSize → m + n ≤ s.params.memSize →
        ((∃ j, j < sh.laneCount ∧ sh.laneCount ≤ s.lane sh m j) →
          exec (.simdshuffle ctx rd rs rt) s = .next (s.faultedWith .simdFault)) ∧
        ((∀ j, j < sh.laneCount → s.lane sh m j < sh.laneCount) → s.params.memSize < d + n →
          exec (.simdshuffle ctx rd rs rt) s = .next (s.faultedWith (.memoryFault d n))) ∧
        ((∀ j, j < sh.laneCount → s.lane sh m j < sh.laneCount) → d + n ≤ s.params.memSize →
          ∃ t : State, exec (.simdshuffle ctx rd rs rt) s = .next t ∧
            WritesLanes sh d (fun j => s.lane sh a (s.lane sh m j)) s t)))

/-! ### Proofs and templates (49_mast_covenants.md) -/

/-- CHECKPROOF R280 (decision D31): `n` hashes of 32 bytes at `x[rs]`, the root in `x[rt]`; the proof oracle is the
opaque constant of notes/assumptions/18.md. CHECKTEMPLATE R281 (decision D42): 1 exactly when the two registers have no
1 bit in common, whatever the immediate. -/
def Obligations.CheckProofAndTemplate : Prop :=
  (∀ (s : State) (rd rs rt : Reg) (n index : BitVec 3) (a : Nat), a = (s.reg rs).toNat →
     decode (slotsPattern 0xCD rd rs rt (n.toNat * 8 + index.toNat) 0 0) =
       .ok (.checkproof rd rs rt n index) ∧
     (¬s.Fits a (n.toNat * 32) →
       exec (.checkproof rd rs rt n index) s =
         .next (s.faultedWith (.memoryFault a (n.toNat * 32)))) ∧
     (s.Fits a (n.toNat * 32) →
       ∃ t : State, exec (.checkproof rd rs rt n index) s = .next t ∧
         WritesReg rd
           (if Config.proofOracle n.toNat index.toNat (s.bytesAt a (n.toNat * 32)) (s.reg rt) = true
             then 1 else 0) s t)) ∧
  (∀ (s : State) (rd rs rt : Reg) (imm : BitVec 18),
     decode (imm18Pattern 0xCE rd rs rt imm) = .ok (.checktemplate rd rs rt imm) ∧
     ∃ (t : State) (v : Word), exec (.checktemplate rd rs rt imm) s = .next t ∧ WritesReg rd v s t ∧
       ((∀ k, k < 256 → ¬((s.reg rs).getLsbD k = true ∧ (s.reg rt).getLsbD k = true)) → v = 1) ∧
       ((∃ k, k < 256 ∧ (s.reg rs).getLsbD k = true ∧ (s.reg rt).getLsbD k = true) → v = 0))

/-! ### Decoding and encoding (30_encoding.md) -/

/-- Decoding the pattern of an instruction gives the instruction, with every operand at every value. -/
def Obligations.DecodeEncode : Prop := ∀ i : Instr, decode (encode i) = .ok i

/-- A pattern that decodes is the pattern of the instruction it decodes to: no bit of it is ignored. -/
def Obligations.EncodeDecode : Prop := ∀ (w : Pattern) (i : Instr), decode w = .ok i → encode i = w

/-- R67 (decision D7): the 129 opcodes that have no instruction, and the fault of a step that fetches one. -/
def Obligations.UnassignedOpcodes : Prop :=
  ∀ (s : State) (w : Pattern) (op : Nat), op = w.toNat / 2 ^ 36 →
    (decode w = .error .unassignedOpcode ↔
      (0x37 ≤ op ∧ op ≤ 0x7F) ∨ (0xA4 ≤ op ∧ op ≤ 0xA9) ∨ op = 0xCB ∨ (0xCF ≤ op ∧ op ≤ 0xFF)) ∧
    (decode w = .error .unassignedOpcode → s.runState = .running → s.fetch = some w →
      step s = .next (s.faultedWith (.illegalInstruction w)))

/-- R68 (decision D6) as the model takes it (notes/assumptions/12.md): a pattern whose opcode is assigned and that is
the pattern of no instruction has a non-zero unused slot, and a step that fetches it is refused. -/
def Obligations.ReservedPatterns : Prop :=
  ∀ (s : State) (w : Pattern), (∃ i, opcodeOf (encode i) = opcodeOf w) → (∀ i, encode i ≠ w) →
    decode w = .error .reservedSlots ∧
    (s.runState = .running → s.fetch = some w → step s = .refused .reservedPattern)

/-- Patterns written out in 30_encoding.md and the instruction rules, and what each decodes to. -/
def Obligations.SampleWords : Prop :=
  decode 0x010C1080000 = .ok (.add 3 1 2) ∧ decode 0x02042FFFFFF = .ok (.addi 1 2 (-1)) ∧
  decode 0x2E0420000FF = .ok (.xori 1 2 0xFF) ∧ decode 0x11000000010 = .ok (.j 0x10) ∧
  decode 0x1E042000000 = .ok (.sb 1 2 0) ∧ decode 0x31101083000 = .ok (.addmod 4 1 2 3) ∧
  decode 0x940420C4000 = .ok (.extcodecopy 1 2 3 4) ∧ decode 0xA30420C4146 = .ok (.log4 1 2 3 4 5 6) ∧
  decode 0xB2000000081 = .ok (.beginsub 2 1) ∧ decode 0xCA043042000 = .ok (.simdindex 1 3 1 2) ∧
  decode 0xCD0C10A2000 = .ok (.checkproof 3 1 2 4 2) ∧
  decode 0xCE0C10BFFFF = .ok (.checktemplate 3 1 2 0x3FFFF)

/-! ### The step and the whole machine -/

/-- A step of a RUNNING machine runs the instruction its pattern decodes to and adds nothing (10_state.md R13). -/
def Obligations.StepRunsDecoded : Prop :=
  ∀ (s : State) (w : Pattern) (i : Instr), s.runState = .running → s.fetch = some w →
    decode w = .ok i → step s = exec i s

/-- Fetch is defined exactly at the multiples of 4 where the program has a pattern; elsewhere a step is FetchFault
(20_memory.md R47; 60_exceptions.md R301; the partial map of notes/assumptions/21.md). A state that is not RUNNING has
no step (10_state.md R15, R13): the model's only fault (notes/assumptions/11.md). -/
def Obligations.StepWithoutInstruction : Prop :=
  (∀ s : State,
     (s.pc.toNat % 4 = 0 → s.fetch = s.program.lookup s.pc.toNat) ∧
     (s.pc.toNat % 4 ≠ 0 → s.fetch = none) ∧
     (s.runState = .running → s.fetch = none → step s = .next (s.faultedWith .fetchFault))) ∧
  (∀ s : State, s.runState ≠ .running → step s = .fault .notRunning)

/-- Every step keeps the invariant. -/
def Obligations.StepKeepsInv : Prop := ∀ s t : State, s.Inv → step s = .next t → t.Inv

/-- The reset state meets the invariant. -/
def Obligations.ResetMeetsInv : Prop := State.reset.Inv

/-- Faults are precise (60_exceptions.md R302): a step into FAULTED changes nothing but the run state, and FAULTED is
terminal, the step function being undefined there (in the model's form, notes/assumptions/11.md). -/
def Obligations.FaultsArePrecise : Prop :=
  ∀ (s t : State) (c : Cause), step s = .next t → t.runState = .faulted c →
    t = s.faultedWith c ∧ step t = .fault .notRunning

/-- No step writes the flag, the marker, the code space, the jump vector, a launch parameter or a field of the
environment other than the gas and the balances, which only a message call or a creation may change
(10_state.md R18, R19, R25; 45_ethereum_env.md R180 a). That a message call and a creation leave every field of the
environment but those two is the model's choice (notes/assumptions/16.md: R210 writes `env'` whole), and so is that the
launch parameters are fields of the state which no step writes (notes/assumptions/10.md). -/
def Obligations.ReadOnlyState : Prop :=
  ∀ (s t : State), step s = .next t →
    SameInputs s t ∧ SameEnvBut s t ∧
    ((∀ w i, s.fetch = some w → decode w = .ok i →
        (∀ rd rs, i ≠ .call rd rs) ∧ (∀ rd rs, i ≠ .callcode rd rs) ∧
        (∀ rd rs, i ≠ .delegatecall rd rs) ∧ (∀ rd rs, i ≠ .staticcall rd rs) ∧
        (∀ rd rs rt ru rv, i ≠ .create2 rd rs rt ru rv)) →
      t.env = s.env)

/-- What a step does to the counters (10_state.md R12): a machine that goes on is at the old `nPC`; one that ends is
where it was. -/
def Obligations.CountersMove : Prop :=
  ∀ s t : State, step s = .next t →
    (t.runState = .running ∧ t.pc = s.npc) ∨
    (t.runState ≠ .running ∧ t.pc = s.pc ∧ t.npc = s.npc)

/-- Only the SIMD instructions of 48_eip616_simd.md other than SIMDINDEX, SB, SW, PUTLOCAL, the copies and the four
message calls write data memory: the "written by" column of 10_state.md R23. The opcode of the instruction says which
it is: 0x1E SB, 0x2B SW, 0x8F, 0x91, 0x94, 0x96 the copies, 0x97 to 0x9A the calls, 0xB1 PUTLOCAL, 0xB4 to 0xC9 and
0xCC SIMD. -/
def Obligations.MemoryWriters : Prop :=
  ∀ (i : Instr) (s t : State) (op : Nat), exec i s = .next t → op = (opcodeOf (encode i)).toNat →
    op ∉ [0x1E, 0x2B, 0x8F, 0x91, 0x94, 0x96, 0x97, 0x98, 0x99, 0x9A, 0xB1, 0xCC] →
    (op < 0xB4 ∨ 0xC9 < op) →
    SameMemory s t

/-- Which opcodes write what (10_state.md R11, R20, R21, R24): DIV, DIVU and the six MOD-family instructions `hi` and
`lo`; JUMPSUB, JUMPSUBV and RETURNSUB the call stack; BEGINSUB `subs`; LOG0 to LOG4 the log; the message calls and CREATE2
the return data; no other instruction any of them. -/
def Obligations.RegisterAndListWriters : Prop :=
  ∀ (i : Instr) (s t : State) (op : Nat), exec i s = .next t → op = (opcodeOf (encode i)).toNat →
    (op ∉ [0x0F, 0x10, 0x2F, 0x30, 0x31, 0x32, 0x34, 0x35] → SameHiLo s t) ∧
    (op ∉ [0xAD, 0xAE, 0xAF] → t.callstack = s.callstack) ∧
    (op ≠ 0xB2 → t.subs = s.subs) ∧
    (op ∉ [0x9F, 0xA0, 0xA1, 0xA2, 0xA3] → t.log = s.log) ∧
    (op ∉ [0x97, 0x98, 0x99, 0x9A, 0x9C] → t.returndata = s.returndata)

/-- What launch leaves (70_reset_and_hazards.md R331; 10_state.md R26), for every launch record: the values the record
gives, and the values the rule gives. A register, `hi`, `lo`, `compare` or `marker` the record does not give is not
spoken of, but for register 0 where `ZERO_REG` holds (00_scope.md R2). That `MEM0` is a list of bytes, 0 where it gives
none, is the model's choice (notes/assumptions/6.md), and so are the parameters as a field of the state
(notes/assumptions/10.md); the last clause is the model's own invariant. -/
def Obligations.LaunchValues : Prop :=
  ∀ r : LaunchRecord,
    r.launch.pc = r.entry ∧ r.launch.npc = r.entry + 4 ∧ r.launch.runState = .running ∧
    r.launch.callstack = [] ∧ r.launch.subs = [] ∧ r.launch.log = [] ∧ r.launch.returndata = [] ∧
    r.launch.program = r.program ∧ r.launch.dataVec = r.dataVec ∧ r.launch.env = r.env ∧
    r.launch.params = r.params ∧
    (∀ k v, r.regs.lookup k.val = some v → (r.params.zeroReg = false ∨ k ≠ 0) → r.launch.reg k = v) ∧
    (r.params.zeroReg = true → r.launch.reg 0 = 0) ∧
    (∀ v, r.hi = some v → r.launch.hi = v) ∧ (∀ v, r.lo = some v → r.launch.lo = v) ∧
    (∀ c, r.compare = some c → r.launch.compare = c) ∧
    (∀ v, r.marker = some v → r.launch.marker = v) ∧
    (∀ a, a < r.params.memSize → r.launch.byte a = (r.mem0.reverse.lookup a).getD 0) ∧
    r.launch.Inv

/-- The reset state is the launch of a record that gives nothing: `PC = ENTRY = 0`, `nPC = 4`, RUNNING, the lists empty
(70_reset_and_hazards.md R331). -/
def Obligations.ResetIsLaunch : Prop :=
  State.reset = ({} : LaunchRecord).launch ∧ State.reset.pc = 0 ∧ State.reset.npc = 4 ∧
  State.reset.runState = .running ∧ State.reset.callstack = [] ∧ State.reset.subs = [] ∧
  State.reset.log = [] ∧ State.reset.returndata = []

/-! ### Registers and data memory -/

/-- The register file (10_state.md R10; 00_scope.md R2): a register reads as what was last written to it and a write
leaves every other register alone, for all 64; where `ZERO_REG` holds, register 0 reads as zero and ignores
writes. -/
def Obligations.RegisterFile : Prop :=
  ∀ (s : State) (r q : Reg) (v : Word),
    (s.params.zeroReg = false → (s.setReg r v).reg r = v) ∧
    (r ≠ 0 → (s.setReg r v).reg r = v) ∧
    (q ≠ r → (s.setReg r v).reg q = s.reg q) ∧
    (s.params.zeroReg = true → s.reg 0 = 0 ∧ s.setReg 0 v = s)

/-- MemRead R41 (decision D9): the empty sequence for a count of 0 at any address, MemoryFault past the end, the bytes
in address order otherwise. MemWrite R42 (decisions D9, D33): nothing for a count of 0 at any address; MemoryFault, and
so no state with a byte written, past the end; otherwise each byte in its place and no other byte changed. -/
def Obligations.DataMemory : Prop :=
  (∀ (s : State) (addr n : Nat),
     s.memRead addr 0 = .ok [] ∧
     (0 < n → s.params.memSize < addr + n → s.memRead addr n = .error (.memoryFault addr n)) ∧
     (0 < n → addr + n ≤ s.params.memSize → s.memRead addr n = .ok (s.bytesAt addr n))) ∧
  (∀ (s : State) (addr : Nat) (bytes : List Byte),
     s.memWrite addr [] = .ok s ∧
     (0 < bytes.length → s.params.memSize < addr + bytes.length →
       s.memWrite addr bytes = .error (.memoryFault addr bytes.length)) ∧
     (0 < bytes.length → addr + bytes.length ≤ s.params.memSize →
       ∃ t : State, s.memWrite addr bytes = .ok t ∧
         (∀ k (h : k < bytes.length), t.byte (addr + k) = bytes[k]) ∧
         SameMemoryOutside addr bytes.length s t ∧ { t with mem := s.mem } = s))

/-- Byte order (20_memory.md R43, decision D10): `bytes_BE` gives `n` bytes whose big-endian number is the value modulo
2^(8n), and `BE` is the number whose most significant byte is the first. -/
def Obligations.ByteOrder : Prop :=
  ∀ (v n : Nat) (bytes : List Byte),
    (bytesBE v n).length = n ∧ bigEndian (bytesBE v n) = v % 2 ^ (8 * n) ∧
    beNat bytes = bigEndian bytes

/-! ### The code space -/

/-- The domain of the code space (20_memory.md R47): over a program at `BASE, BASE+4, ...` up to its last instruction,
fetch gives the pattern at each of these addresses and nothing at any other, and no step writes the program. That a
program is a table, and that the unbroken stretch is a check of it and not part of its type, are the model's choices
(notes/assumptions/21.md). -/
def Obligations.FetchDomain : Prop :=
  ∀ (s : State) (base : CodeAddr), unbrokenFrom base s.program = true →
    (∀ k (h : k < s.program.length), s.pc.toNat = base.toNat + 4 * k → s.fetch = some s.program[k].2) ∧
    ((∀ k, k < s.program.length → s.pc.toNat ≠ base.toNat + 4 * k) → s.fetch = none) ∧
    (∀ t, step s = .next t → t.program = s.program)
end

