-- ==== Sys2Proof/Laws/Alu.lean ====
section
/-! SUPPORT. What the shared arithmetic computes, as numbers. -/

namespace Sys2Proof.Machine

/-! ### Shifts (41_alu_logic_shift_compare.md R120 c), at every width and for every amount -/

theorem toNat_shiftLeft {w : Nat} (v : BitVec w) (n : Nat) :
    (shiftLeft v n).toNat = v.toNat * 2 ^ n % 2 ^ w := by
  unfold shiftLeft
  split
  · rename_i h
    obtain ⟨d, rfl⟩ := Nat.exists_eq_add_of_le h
    rw [Nat.pow_add, ← Nat.mul_assoc, Nat.mul_right_comm, Nat.mul_mod_left]
    rfl
  · simp

theorem toNat_shiftRightLogical {w : Nat} (v : BitVec w) (n : Nat) :
    (shiftRightLogical v n).toNat = v.toNat / 2 ^ n := by
  have hv := v.isLt
  unfold shiftRightLogical
  split
  · rename_i h
    rw [Nat.div_eq_of_lt (Nat.lt_of_lt_of_le hv (Nat.pow_le_pow_right (by omega) h))]
    rfl
  · rw [BitVec.toNat_ofNat]
    exact Nat.mod_eq_of_lt (Nat.lt_of_le_of_lt (Nat.div_le_self _ _) hv)

/-- A signed value that is shifted by the width or more: 0 or -1 by the sign. -/
theorem toInt_div_pow_of_le {w : Nat} (v : BitVec w) (n : Nat) (h : w ≤ n) :
    v.toInt / 2 ^ n = if v.toInt < 0 then -1 else 0 := by
  have h1 := BitVec.two_mul_toInt_lt (x := v)
  have h2 := BitVec.le_two_mul_toInt (x := v)
  have hp : (2 : Int) ^ w ≤ 2 ^ n := pow_le_pow_right₀ (by norm_num) h
  have hpos : (0 : Int) < 2 ^ n := by positivity
  split
  · rename_i hneg
    exact Int.ediv_eq_neg_one_of_neg_of_le hneg (by omega)
  · exact Int.ediv_eq_zero_of_lt (by omega) (by omega)

/-- The arithmetic shift is the floor of the signed quotient, re-encoded. -/
theorem shiftRightArithmetic_eq {w : Nat} (v : BitVec w) (n : Nat) :
    shiftRightArithmetic v n = BitVec.ofInt w (v.toInt / 2 ^ n) := by
  unfold shiftRightArithmetic
  split
  · rename_i h
    rw [toInt_div_pow_of_le v n h]
    split
    · rw [BitVec.ofInt_neg, ← BitVec.neg_one_eq_allOnes]
      rfl
    · rfl
  · rfl

/-- A signed value divided by a power of two is in range. -/
theorem toInt_shiftRightArithmetic {w : Nat} (hw : 0 < w) (v : BitVec w) (n : Nat) :
    (shiftRightArithmetic v n).toInt = v.toInt / 2 ^ n := by
  have h1 := BitVec.two_mul_toInt_lt (x := v)
  have h2 := BitVec.le_two_mul_toInt (x := v)
  have hpos : (0 : Int) < 2 ^ n := by positivity
  have hone : (1 : Int) ≤ 2 ^ n := by omega
  rw [shiftRightArithmetic_eq, BitVec.toInt_ofInt]
  have hw2 : (2 : Int) ^ w = 2 * 2 ^ (w - 1) := by
    rw [← pow_succ']; congr 1; omega
  have hle : -(2 ^ (w - 1)) ≤ v.toInt / 2 ^ n := by
    rw [Int.le_ediv_iff_mul_le hpos]
    nlinarith [show (0 : Int) < 2 ^ (w - 1) by positivity]
  have hlt : v.toInt / 2 ^ n < 2 ^ (w - 1) := by
    rw [Int.ediv_lt_iff_lt_mul hpos]
    nlinarith [show (0 : Int) < 2 ^ (w - 1) by positivity]
  rw [Int.bmod_eq_of_le] <;> push_cast <;> omega

/-! ### Exponentiation (44_alu_evm_arith.md R175) -/

theorem powLoop_eq (k base e acc : Nat) (he : e < 2 ^ k) :
    powLoop k base e acc % 2 ^ 256 = acc * base ^ e % 2 ^ 256 := by
  induction k generalizing base e acc with
  | zero => obtain rfl : e = 0 := by simpa using he
            simp [powLoop]
  | succ k ih =>
    rw [powLoop, ih _ _ _ (by rw [Nat.pow_succ] at he; omega), Nat.mul_mod, Nat.pow_mod,
      Nat.mod_mod, ← Nat.pow_mod, ← Nat.mul_mod]
    have hsq : (base * base) ^ (e / 2) = base ^ (2 * (e / 2)) := by
      rw [Nat.pow_mul, Nat.pow_two]
    rcases Nat.mod_two_eq_zero_or_one e with h | h
    · rw [if_neg (by omega), hsq]
      congr 3; omega
    · rw [if_pos h, hsq, Nat.mul_mod, Nat.mod_mod, ← Nat.mul_mod, Nat.mul_assoc, ← Nat.pow_succ']
      congr 3; omega

/-- The power modulo 2^256, for every exponent below 2^256. -/
theorem powWord_toNat (base : Word) (e : Nat) (he : e < 2 ^ 256) :
    (powWord base e).toNat = base.toNat ^ e % 2 ^ 256 := by
  rw [powWord, BitVec.toNat_ofNat, powLoop_eq _ _ _ _ he, Nat.one_mul]

/-! ### Signed division (40_alu_arith.md R113) -/

/-- The remainder is smaller than the divisor and has the sign of the dividend. -/
theorem tmod_sign (a b : Int) (hb : b ≠ 0) :
    |a.tmod b| < |b| ∧ (0 < a.tmod b → 0 < a) ∧ (a.tmod b < 0 → a < 0) := by
  refine ⟨?_, fun h => ?_, fun h => ?_⟩
  · rw [← Int.natCast_natAbs, ← Int.natCast_natAbs, Int.natAbs_tmod]
    exact_mod_cast Nat.mod_lt _ (Int.natAbs_pos.mpr hb)
  · by_contra hn
    have := Int.tmod_nonneg b (show 0 ≤ -a by omega)
    rw [Int.neg_tmod] at this
    omega
  · by_contra hn
    have := Int.tmod_nonneg b (show 0 ≤ a by omega)
    omega

/-- A signed remainder by a divisor of `w` bits fits in `w` bits. -/
theorem toInt_signedRemainder {w : Nat} (hw : 0 < w) (a b : Int) (hb : b ≠ 0)
    (h : |b| ≤ 2 ^ (w - 1)) : (signedRemainder (w := w) a b).toInt = a.tmod b := by
  have hlt := (tmod_sign a b hb).1
  have hw2 : (2 : Int) ^ w = 2 * 2 ^ (w - 1) := by
    rw [← pow_succ']; congr 1; omega
  have := abs_lt.mp (lt_of_lt_of_le hlt h)
  rw [signedRemainder, BitVec.toInt_ofInt]
  rw [Int.bmod_eq_of_le] <;> push_cast <;> omega

end Sys2Proof.Machine
end

