-- ==== Sys2Proof/Laws/Memory.lean ====
section
/-! SUPPORT. Data memory: what a read after a write gives, and the canonical form (20_memory.md R40 to R42). -/

namespace Sys2Proof.Machine

/-! ### One byte -/

theorem Memory.read_cons (k : Nat) (v : Byte) (m : Memory) (a : Nat) :
    Memory.read ((k, v) :: m) a = if k = a then v else Memory.read m a := rfl

/-- An address that is not listed reads as the unlisted byte. -/
theorem Memory.read_eq_unlisted (m : Memory) (a : Nat) (h : ∀ cell ∈ m, cell.1 ≠ a) :
    Memory.read m a = Memory.unlisted := by
  induction m with
  | nil => rfl
  | cons cell rest ih =>
    rw [Memory.read_cons, if_neg (h cell (by simp))]
    exact ih fun c hc => h c (by simp [hc])

/-- Dropping the entries of one address leaves every other address alone. -/
theorem Memory.read_filter (m : Memory) (a b : Nat) :
    Memory.read (m.filter fun cell => !(cell.1 == a)) b =
      if b = a then Memory.unlisted else Memory.read m b := by
  induction m with
  | nil => simp [Memory.read]
  | cons cell rest ih =>
    obtain ⟨k, v⟩ := cell
    by_cases hk : k = a
    · subst hk
      by_cases hb : b = k
      · rw [if_pos hb] at ih
        simpa [hb] using ih
      · simp [ih, hb, Memory.read_cons, Ne.symm hb]
    · by_cases hb : b = a
      · subst hb
        simp [hk, Memory.read_cons, ih]
      · simp [hk, Memory.read_cons, ih, hb]

/-- An entry that is put in is read back, where its address was not listed before. -/
theorem Memory.read_insertCell (m : Memory) (a b : Nat) (v : Byte) (h : ∀ cell ∈ m, cell.1 ≠ a) :
    Memory.read (Memory.insertCell a v m) b = if b = a then v else Memory.read m b := by
  induction m with
  | nil => simp [Memory.insertCell, Memory.read_cons, eq_comm]
  | cons cell rest ih =>
    obtain ⟨k, w⟩ := cell
    have hk : k ≠ a := h (k, w) (by simp)
    unfold Memory.insertCell
    split
    · rw [Memory.read_cons]; simp [eq_comm]
    · rw [Memory.read_cons, Memory.read_cons, ih fun c hc => h c (by simp [hc])]
      by_cases hb : b = a
      · subst hb; simp [hk]
      · simp [hb]

/-- A read after a write: the byte written, or what was there. -/
@[simp] theorem Memory.read_write (m : Memory) (a b : Nat) (v : Byte) :
    Memory.read (Memory.write m a v) b = if b = a then v else Memory.read m b := by
  simp only [Memory.write]
  split
  · rename_i hv
    rw [Memory.read_filter, hv]
  · rw [Memory.read_insertCell _ _ _ _ (by simp), Memory.read_filter]
    split <;> simp_all

/-! ### Byte sequences -/

/-- Reading a range gives its bytes in address order. -/
theorem Memory.readBytes_eq_map (m : Memory) (a n : Nat) :
    Memory.readBytes m a n = (List.range n).map fun k => Memory.read m (a + k) := by
  induction n generalizing a with
  | zero => rfl
  | succ n ih =>
    rw [Memory.readBytes, ih, List.range_succ_eq_map, List.map_cons, List.map_map]
    simp only [Nat.add_zero, List.cons.injEq, true_and]
    exact List.map_congr_left fun k _ => by simp only [Function.comp]; congr 1; omega

@[simp] theorem Memory.length_readBytes (m : Memory) (a n : Nat) :
    (Memory.readBytes m a n).length = n := by
  simp [Memory.readBytes_eq_map]

/-- A read after a write of a range. -/
theorem Memory.read_writeBytes (m : Memory) (a b : Nat) (bytes : List Byte) :
    Memory.read (Memory.writeBytes m a bytes) b =
      if a ≤ b then bytes[b - a]?.getD (Memory.read m b) else Memory.read m b := by
  induction bytes generalizing m a with
  | nil => simp [Memory.writeBytes]
  | cons x xs ih =>
    rw [Memory.writeBytes, ih, Memory.read_write]
    rcases Nat.lt_trichotomy a b with h | h | h
    · obtain ⟨d, rfl⟩ : ∃ d, b = a + 1 + d := ⟨b - (a + 1), by omega⟩
      have e1 : a + 1 + d - (a + 1) = d := by omega
      have e2 : a + 1 + d - a = d + 1 := by omega
      rw [if_pos (by omega), if_neg (by omega), if_pos (by omega), e1, e2,
        List.getElem?_cons_succ]
    · subst h
      rw [if_neg (by omega), if_pos rfl, if_pos (Nat.le_refl _), Nat.sub_self]
      rfl
    · rw [if_neg (by omega), if_neg (by omega), if_neg (by omega)]

/-- A byte of a written range. -/
theorem Memory.read_writeBytes_inside (m : Memory) (a k : Nat) (bytes : List Byte)
    (h : k < bytes.length) : Memory.read (Memory.writeBytes m a bytes) (a + k) = bytes[k] := by
  rw [Memory.read_writeBytes, if_pos (by omega), Nat.add_sub_cancel_left,
    List.getElem?_eq_getElem h, Option.getD_some]

/-- A byte outside a written range. -/
theorem Memory.read_writeBytes_outside (m : Memory) (a b : Nat) (bytes : List Byte)
    (h : b < a ∨ a + bytes.length ≤ b) :
    Memory.read (Memory.writeBytes m a bytes) b = Memory.read m b := by
  rw [Memory.read_writeBytes]
  split
  · rw [List.getElem?_eq_none (by omega), Option.getD_none]
  · rfl

/-- A read after a write of cells: at an allowed address the last cell for it, elsewhere what was there. -/
theorem Memory.read_writeCells (m : Memory) (allowed : Nat → Bool) (cells : List Host.Cell)
    (b : Nat) :
    Memory.read (Memory.writeCells m allowed cells) b =
      if allowed b = true then (cells.reverse.lookup b).getD (Memory.read m b)
      else Memory.read m b := by
  induction cells generalizing m with
  | nil => simp [Memory.writeCells]
  | cons cell rest ih =>
    obtain ⟨a, v⟩ := cell
    rw [Memory.writeCells, ih, List.reverse_cons, List.lookup_append]
    by_cases hb : b = a
    · subst hb
      by_cases ha : allowed b = true
      · simp only [ha, if_true, Memory.read_write]
        cases List.lookup b rest.reverse <;> simp [List.lookup]
      · simp [ha]
    · have hn : (b == a) = false := by simp [hb]
      have hr : Memory.read (if allowed a = true then Memory.write m a v else m) b =
          Memory.read m b := by
        split <;> simp [hb]
      rw [hr]
      cases List.lookup b rest.reverse <;> simp [List.lookup, hn]

/-! ### The canonical form -/

theorem Memory.wf_cons (k : Nat) (v : Byte) (m : Memory) :
    Memory.wf ((k, v) :: m) = true ↔
      v ≠ Memory.unlisted ∧ (∀ cell ∈ m, k < cell.1) ∧ Memory.wf m = true := by
  simp [Memory.wf, List.all_eq_true, and_assoc]

theorem Memory.wf_filter (m : Memory) (p : Host.Cell → Bool) (h : Memory.wf m = true) :
    Memory.wf (m.filter p) = true := by
  induction m with
  | nil => rfl
  | cons cell rest ih =>
    obtain ⟨k, v⟩ := cell
    obtain ⟨hv, hk, hr⟩ := (Memory.wf_cons k v rest).mp h
    rw [List.filter_cons]
    split
    · exact (Memory.wf_cons _ _ _).mpr ⟨hv, fun c hc => hk c (List.mem_filter.mp hc).1, ih hr⟩
    · exact ih hr

/-- The entries after an entry is put in. -/
theorem Memory.mem_insertCell (m : Memory) (a : Nat) (v : Byte) (cell : Host.Cell) :
    cell ∈ Memory.insertCell a v m ↔ cell = (a, v) ∨ cell ∈ m := by
  induction m with
  | nil => simp [Memory.insertCell]
  | cons c rest ih =>
    obtain ⟨k, w⟩ := c
    unfold Memory.insertCell
    split
    · simp
    · simp only [List.mem_cons, ih]; tauto

theorem Memory.wf_insertCell (m : Memory) (a : Nat) (v : Byte) (hv : v ≠ Memory.unlisted)
    (h : Memory.wf m = true) (ha : ∀ cell ∈ m, cell.1 ≠ a) :
    Memory.wf (Memory.insertCell a v m) = true := by
  induction m with
  | nil => simp [Memory.insertCell, Memory.wf, hv]
  | cons cell rest ih =>
    obtain ⟨k, w⟩ := cell
    obtain ⟨hw, hk, hr⟩ := (Memory.wf_cons k w rest).mp h
    have hka : k ≠ a := ha (k, w) (by simp)
    unfold Memory.insertCell
    split
    · rename_i hlt
      refine (Memory.wf_cons _ _ _).mpr ⟨hv, ?_, h⟩
      intro c hc
      rcases List.mem_cons.mp hc with rfl | hc
      · exact hlt
      · exact Nat.lt_trans hlt (hk c hc)
    · refine (Memory.wf_cons _ _ _).mpr ⟨hw, ?_, ih hr fun c hc => ha c (by simp [hc])⟩
      intro c hc
      rcases (Memory.mem_insertCell _ _ _ _).mp hc with rfl | hc
      · omega
      · exact hk c hc

/-- A write keeps the canonical form. -/
theorem Memory.wf_write (m : Memory) (a : Nat) (v : Byte) (h : Memory.wf m = true) :
    Memory.wf (Memory.write m a v) = true := by
  simp only [Memory.write]
  split
  · exact Memory.wf_filter m _ h
  · rename_i hv
    exact Memory.wf_insertCell _ _ _ hv (Memory.wf_filter m _ h) (by simp)

/-- A write of bytes keeps the canonical form. -/
theorem Memory.wf_writeBytes (m : Memory) (a : Nat) (bytes : List Byte) (h : Memory.wf m = true) :
    Memory.wf (Memory.writeBytes m a bytes) = true := by
  induction bytes generalizing m a with
  | nil => exact h
  | cons x xs ih => exact ih _ _ (Memory.wf_write m a x h)

/-- A write of cells keeps the canonical form. -/
theorem Memory.wf_writeCells (m : Memory) (allowed : Nat → Bool) (cells : List Host.Cell)
    (h : Memory.wf m = true) : Memory.wf (Memory.writeCells m allowed cells) = true := by
  induction cells generalizing m with
  | nil => exact h
  | cons cell rest ih =>
    rw [Memory.writeCells]
    apply ih
    split
    · exact Memory.wf_write m _ _ h
    · exact h

/-! ### Where the entries lie -/

/-- A write below a bound keeps every entry below it. -/
theorem Memory.write_below (m : Memory) (a n : Nat) (v : Byte) (ha : a < n)
    (h : m.all (fun cell => decide (cell.1 < n)) = true) :
    (Memory.write m a v).all (fun cell => decide (cell.1 < n)) = true := by
  simp only [List.all_eq_true, decide_eq_true_eq] at h ⊢
  intro c hc
  simp only [Memory.write] at hc
  split at hc
  · exact h c (List.mem_filter.mp hc).1
  · rcases (Memory.mem_insertCell _ _ _ _).mp hc with rfl | hc
    · exact ha
    · exact h c (List.mem_filter.mp hc).1

theorem Memory.writeBytes_below (m : Memory) (a n : Nat) (bytes : List Byte)
    (ha : bytes = [] ∨ a + bytes.length ≤ n)
    (h : m.all (fun cell => decide (cell.1 < n)) = true) :
    (Memory.writeBytes m a bytes).all (fun cell => decide (cell.1 < n)) = true := by
  induction bytes generalizing m a with
  | nil => exact h
  | cons x xs ih =>
    simp only [List.length_cons, reduceCtorEq, false_or] at ha
    exact ih _ _ (by right; omega) (Memory.write_below m a n x (by omega) h)

theorem Memory.writeCells_below (m : Memory) (allowed : Nat → Bool) (cells : List Host.Cell) (n : Nat)
    (ha : ∀ a, allowed a = true → a < n)
    (h : m.all (fun cell => decide (cell.1 < n)) = true) :
    (Memory.writeCells m allowed cells).all (fun cell => decide (cell.1 < n)) = true := by
  induction cells generalizing m with
  | nil => exact h
  | cons cell rest ih =>
    rw [Memory.writeCells]
    apply ih
    split
    · rename_i hc
      exact Memory.write_below m _ n _ (ha _ hc) h
    · exact h

end Sys2Proof.Machine
end

