-- ==== Sys2Proof/Laws/Bytes.lean ====
section
/-! SUPPORT. Big-endian numbers and byte sequences (20_memory.md R43), and the lanes of a vector
(48_eip616_simd.md R250). -/

namespace Sys2Proof.Machine

theorem beNat_cons (b : Byte) (bs : List Byte) :
    beNat (b :: bs) = b.toNat * 256 ^ bs.length + beNat bs := rfl

/-- A number of `n` bytes is below `256^n`. -/
theorem beNat_lt (bs : List Byte) : beNat bs < 256 ^ bs.length := by
  induction bs with
  | nil => simp [beNat]
  | cons b bs ih =>
    have := b.isLt
    rw [beNat_cons, List.length_cons, Nat.pow_succ]
    nlinarith [Nat.pow_pos (show 0 < 256 by omega) (n := bs.length)]

/-- The number of a concatenation. -/
theorem beNat_append (xs ys : List Byte) :
    beNat (xs ++ ys) = beNat xs * 256 ^ ys.length + beNat ys := by
  induction xs with
  | nil => simp [beNat]
  | cons x xs ih =>
    rw [List.cons_append, beNat_cons, ih, beNat_cons, List.length_append, Nat.pow_add]
    ring

@[simp] theorem length_bytesBE (v n : Nat) : (bytesBE v n).length = n := by
  induction n with
  | zero => rfl
  | succ n ih => simp [bytesBE, ih]

/-- `BE(bytes_BE(v, n)) = v mod 2^(8n)` (R43). -/
theorem beNat_bytesBE (v n : Nat) : beNat (bytesBE v n) = v % 256 ^ n := by
  induction n with
  | zero => simp [bytesBE, beNat, Nat.mod_one]
  | succ n ih =>
    have h : v % 256 ^ (n + 1) = v % 256 ^ n + 256 ^ n * (v / 256 ^ n % 256) := Nat.mod_pow_succ
    rw [bytesBE, beNat_cons, ih, length_bytesBE, BitVec.toNat_ofNat, h]
    ring

/-- A byte sequence that is a map over a range, cut at a multiple. -/
theorem Memory.readBytes_append (m : Memory) (a n k : Nat) :
    Memory.readBytes m a (n + k) = Memory.readBytes m a n ++ Memory.readBytes m (a + n) k := by
  induction n generalizing a with
  | zero => simp [Memory.readBytes]
  | succ n ih =>
    rw [Nat.succ_add, Memory.readBytes, ih, Memory.readBytes, List.cons_append]
    congr 3
    omega

theorem Memory.take_readBytes (m : Memory) (a n k : Nat) (h : k ≤ n) :
    (Memory.readBytes m a n).take k = Memory.readBytes m a k := by
  obtain ⟨d, rfl⟩ := Nat.exists_eq_add_of_le h
  rw [Memory.readBytes_append, List.take_left' (Memory.length_readBytes m a k)]

theorem Memory.drop_readBytes (m : Memory) (a n k : Nat) (h : k ≤ n) :
    (Memory.readBytes m a n).drop k = Memory.readBytes m (a + k) (n - k) := by
  obtain ⟨d, rfl⟩ := Nat.exists_eq_add_of_le h
  rw [Memory.readBytes_append, List.drop_left' (Memory.length_readBytes m a k),
    Nat.add_sub_cancel_left]

/-- A word of an argument block is the number in its 32 bytes of memory (46_ethereum_calls_logs.md R211). -/
theorem wordAt_readBytes (m : Memory) (a n i : Nat) (h : 32 * i + 32 ≤ n) :
    wordAt (Memory.readBytes m a n) i = beNat (Memory.readBytes m (a + 32 * i) 32) := by
  rw [wordAt, Memory.drop_readBytes _ _ _ _ (by omega), Memory.take_readBytes _ _ _ _ (by omega)]

/-! ### Lanes -/

theorem lanesOf_succ (w lb : Nat) (bytes : List Byte) (n : Nat) :
    lanesOf w lb bytes (n + 1) =
      BitVec.ofNat w (beNat (bytes.take lb)) :: lanesOf w lb (bytes.drop lb) n := rfl

@[simp] theorem length_lanesOf (w lb : Nat) (bytes : List Byte) (n : Nat) :
    (lanesOf w lb bytes n).length = n := by
  induction n generalizing bytes with
  | zero => rfl
  | succ n ih => simp [lanesOf_succ, ih]

/-- Lane `i` of the vector that was read at `a` is the number in its bytes (R250 c). -/
theorem getElem_lanesOf_readBytes (m : Memory) (w lb a n i : Nat) (h : i < n) :
    (lanesOf w lb (Memory.readBytes m a (n * lb)) n)[i]'(by simpa using h) =
      BitVec.ofNat w (beNat (Memory.readBytes m (a + i * lb) lb)) := by
  induction n generalizing a i with
  | zero => omega
  | succ n ih =>
    have hlb : lb ≤ (n + 1) * lb := Nat.le_mul_of_pos_left lb (by omega)
    have e : (n + 1) * lb - lb = n * lb := by rw [Nat.add_mul]; omega
    simp only [lanesOf_succ, Memory.take_readBytes _ _ _ _ hlb,
      Memory.drop_readBytes _ _ _ _ hlb, e]
    cases i with
    | zero => simp
    | succ i =>
      simp only [List.getElem_cons_succ]
      rw [ih (a + lb) i (by omega)]
      congr 3
      ring

theorem bytesOfLanes_cons {w : Nat} (lb : Nat) (v : BitVec w) (vs : List (BitVec w)) :
    bytesOfLanes lb (v :: vs) = bytesBE v.toNat lb ++ bytesOfLanes lb vs := rfl

@[simp] theorem length_bytesOfLanes {w : Nat} (lb : Nat) (vs : List (BitVec w)) :
    (bytesOfLanes lb vs).length = vs.length * lb := by
  induction vs with
  | nil => simp [bytesOfLanes]
  | cons v vs ih => simp [bytesOfLanes_cons, ih]; ring

/-- The bytes of lane `i`. -/
theorem take_drop_bytesOfLanes {w : Nat} (lb : Nat) (vs : List (BitVec w)) (i : Nat)
    (h : i < vs.length) :
    ((bytesOfLanes lb vs).drop (i * lb)).take lb = bytesBE (vs[i]).toNat lb := by
  induction vs generalizing i with
  | nil => simp at h
  | cons v vs ih =>
    cases i with
    | zero => simp [bytesOfLanes_cons, List.take_left' (length_bytesBE v.toNat lb)]
    | succ i =>
      rw [bytesOfLanes_cons, Nat.succ_mul, Nat.add_comm, ← List.drop_drop,
        List.drop_left' (length_bytesBE v.toNat lb), ih i (by simpa using h)]
      rfl

end Sys2Proof.Machine
end

