-- ==== Sys2Proof/Laws/Encoding.lean ====
section
/-! SUPPORT. The fields of a packed pattern (30_encoding.md R61, R63): the value of each packing as one number,
and every field read back. -/

namespace Sys2Proof

/-- Concatenation as arithmetic: the left operand is the more significant one (00_scope.md R3). -/
theorem toNat_append_eq_add {n m : Nat} (x : BitVec n) (y : BitVec m) :
    (x ++ y).toNat = x.toNat * 2 ^ m + y.toNat := by
  rw [BitVec.toNat_append, ← Nat.shiftLeft_add_eq_or_of_lt y.isLt, Nat.shiftLeft_eq]

/-- The value of a pattern (R61). -/
theorem toNat_pack (op : BitVec 8) (s1 s2 s3 s4 s5 s6 : Slot) :
    (pack op s1 s2 s3 s4 s5 s6).toNat =
      op.toNat * 2 ^ 36 + s1.toNat * 2 ^ 30 + s2.toNat * 2 ^ 24 + s3.toNat * 2 ^ 18
        + s4.toNat * 2 ^ 12 + s5.toNat * 2 ^ 6 + s6.toNat := by
  simp only [pack, toNat_append_eq_add]
  omega

theorem toNat_packImm24 (op : BitVec 8) (s1 s2 : Slot) (imm : BitVec 24) :
    (packImm24 op s1 s2 imm).toNat =
      op.toNat * 2 ^ 36 + s1.toNat * 2 ^ 30 + s2.toNat * 2 ^ 24 + imm.toNat := by
  simp only [packImm24, toNat_append_eq_add]
  omega

theorem toNat_packImm36 (op : BitVec 8) (imm : BitVec 36) :
    (packImm36 op imm).toNat = op.toNat * 2 ^ 36 + imm.toNat := by
  simp only [packImm36, toNat_append_eq_add]

theorem toNat_packImm18 (op : BitVec 8) (s1 s2 s3 : Slot) (imm : BitVec 18) :
    (packImm18 op s1 s2 s3 imm).toNat =
      op.toNat * 2 ^ 36 + s1.toNat * 2 ^ 30 + s2.toNat * 2 ^ 24 + s3.toNat * 2 ^ 18
        + imm.toNat := by
  simp only [packImm18, toNat_append_eq_add]
  omega

/-- A field of a pattern is a quotient and a remainder of its value. -/
theorem toNat_field (w : Pattern) (lo n : Nat) :
    (w.extractLsb' lo n).toNat = w.toNat / 2 ^ lo % 2 ^ n := by
  rw [BitVec.extractLsb'_toNat, Nat.shiftRight_eq_div_pow]

/-! The six slots and the opcode of `pack`. -/

section Pack
variable (op : BitVec 8) (s1 s2 s3 s4 s5 s6 : Slot)

@[simp] theorem opcodeOf_pack : opcodeOf (pack op s1 s2 s3 s4 s5 s6) = op := by
  apply BitVec.eq_of_toNat_eq
  rw [opcodeOf, toNat_field, toNat_pack]
  omega

@[simp] theorem slot1_pack : slot1 (pack op s1 s2 s3 s4 s5 s6) = s1 := by
  apply BitVec.eq_of_toNat_eq
  rw [slot1, toNat_field, toNat_pack]
  omega

@[simp] theorem slot2_pack : slot2 (pack op s1 s2 s3 s4 s5 s6) = s2 := by
  apply BitVec.eq_of_toNat_eq
  rw [slot2, toNat_field, toNat_pack]
  omega

@[simp] theorem slot3_pack : slot3 (pack op s1 s2 s3 s4 s5 s6) = s3 := by
  apply BitVec.eq_of_toNat_eq
  rw [slot3, toNat_field, toNat_pack]
  omega

@[simp] theorem slot4_pack : slot4 (pack op s1 s2 s3 s4 s5 s6) = s4 := by
  apply BitVec.eq_of_toNat_eq
  rw [slot4, toNat_field, toNat_pack]
  omega

@[simp] theorem slot5_pack : slot5 (pack op s1 s2 s3 s4 s5 s6) = s5 := by
  apply BitVec.eq_of_toNat_eq
  rw [slot5, toNat_field, toNat_pack]
  omega

@[simp] theorem slot6_pack : slot6 (pack op s1 s2 s3 s4 s5 s6) = s6 := by
  apply BitVec.eq_of_toNat_eq
  rw [slot6, toNat_field, toNat_pack]
  omega

/-- Slots 4 to 6 are zero when each of them is. -/
@[simp] theorem imm18Of_pack_zero : imm18Of (pack op s1 s2 s3 0#6 0#6 0#6) = 0#18 := by
  apply BitVec.eq_of_toNat_eq
  rw [imm18Of, toNat_field, toNat_pack]
  simp only [BitVec.toNat_ofNat]
  omega

/-- Slots 3 to 6 are zero when each of them is. -/
@[simp] theorem imm24Of_pack_zero : imm24Of (pack op s1 s2 0#6 0#6 0#6 0#6) = 0#24 := by
  apply BitVec.eq_of_toNat_eq
  rw [imm24Of, toNat_field, toNat_pack]
  simp only [BitVec.toNat_ofNat]
  omega

/-- All six slots are zero when each of them is. -/
@[simp] theorem imm36Of_pack_zero : imm36Of (pack op 0#6 0#6 0#6 0#6 0#6 0#6) = 0#36 := by
  apply BitVec.eq_of_toNat_eq
  rw [imm36Of, toNat_field, toNat_pack]
  simp only [BitVec.toNat_ofNat]
  omega

end Pack

/-! The two 3-bit fields of CHECKPROOF. -/

@[simp] theorem proofCountOf_pack (op : BitVec 8) (s1 s2 s3 s5 s6 : Slot) (n index : BitVec 3) :
    proofCountOf (pack op s1 s2 s3 (n ++ index) s5 s6) = n := by
  apply BitVec.eq_of_toNat_eq
  rw [proofCountOf, toNat_field, toNat_pack, toNat_append_eq_add]
  omega

@[simp] theorem proofIndexOf_pack (op : BitVec 8) (s1 s2 s3 s5 s6 : Slot) (n index : BitVec 3) :
    proofIndexOf (pack op s1 s2 s3 (n ++ index) s5 s6) = index := by
  apply BitVec.eq_of_toNat_eq
  rw [proofIndexOf, toNat_field, toNat_pack, toNat_append_eq_add]
  omega

/-! The fields of the packings with a long immediate. -/

section Immediate
variable (op : BitVec 8) (s1 s2 s3 : Slot)

@[simp] theorem opcodeOf_packImm24 (imm : BitVec 24) : opcodeOf (packImm24 op s1 s2 imm) = op := by
  apply BitVec.eq_of_toNat_eq
  rw [opcodeOf, toNat_field, toNat_packImm24]
  omega

@[simp] theorem slot1_packImm24 (imm : BitVec 24) : slot1 (packImm24 op s1 s2 imm) = s1 := by
  apply BitVec.eq_of_toNat_eq
  rw [slot1, toNat_field, toNat_packImm24]
  omega

@[simp] theorem slot2_packImm24 (imm : BitVec 24) : slot2 (packImm24 op s1 s2 imm) = s2 := by
  apply BitVec.eq_of_toNat_eq
  rw [slot2, toNat_field, toNat_packImm24]
  omega

@[simp] theorem imm24Of_packImm24 (imm : BitVec 24) : imm24Of (packImm24 op s1 s2 imm) = imm := by
  apply BitVec.eq_of_toNat_eq
  rw [imm24Of, toNat_field, toNat_packImm24]
  omega

@[simp] theorem opcodeOf_packImm36 (imm : BitVec 36) : opcodeOf (packImm36 op imm) = op := by
  apply BitVec.eq_of_toNat_eq
  rw [opcodeOf, toNat_field, toNat_packImm36]
  omega

@[simp] theorem imm36Of_packImm36 (imm : BitVec 36) : imm36Of (packImm36 op imm) = imm := by
  apply BitVec.eq_of_toNat_eq
  rw [imm36Of, toNat_field, toNat_packImm36]
  omega

@[simp] theorem opcodeOf_packImm18 (imm : BitVec 18) :
    opcodeOf (packImm18 op s1 s2 s3 imm) = op := by
  apply BitVec.eq_of_toNat_eq
  rw [opcodeOf, toNat_field, toNat_packImm18]
  omega

@[simp] theorem slot1_packImm18 (imm : BitVec 18) : slot1 (packImm18 op s1 s2 s3 imm) = s1 := by
  apply BitVec.eq_of_toNat_eq
  rw [slot1, toNat_field, toNat_packImm18]
  omega

@[simp] theorem slot2_packImm18 (imm : BitVec 18) : slot2 (packImm18 op s1 s2 s3 imm) = s2 := by
  apply BitVec.eq_of_toNat_eq
  rw [slot2, toNat_field, toNat_packImm18]
  omega

@[simp] theorem slot3_packImm18 (imm : BitVec 18) : slot3 (packImm18 op s1 s2 s3 imm) = s3 := by
  apply BitVec.eq_of_toNat_eq
  rw [slot3, toNat_field, toNat_packImm18]
  omega

@[simp] theorem imm18Of_packImm18 (imm : BitVec 18) :
    imm18Of (packImm18 op s1 s2 s3 imm) = imm := by
  apply BitVec.eq_of_toNat_eq
  rw [imm18Of, toNat_field, toNat_packImm18]
  omega

end Immediate

@[simp] theorem regOf_slotOf (r : Reg) : regOf (slotOf r) = r := rfl

@[simp] theorem slotOf_regOf (s : Slot) : slotOf (regOf s) = s := rfl

theorem toNat_slotOf (r : Reg) : (slotOf r).toNat = r.val := rfl

end Sys2Proof
end

