-- ==== Sys2Proof/Laws/State.lean ====
section
/-! SUPPORT. One lemma per field and update of the state, and the register file. -/

/-- `MEM_SIZE` is at most 2^XLEN (20_memory.md R40). -/
theorem Sys2Proof.Params.memSize_le (p : Sys2Proof.Params) : p.memSize ≤ 2 ^ 256 := Nat.le_of_lt_succ p.memBytes.isLt

namespace Sys2Proof.Machine

/-! ### `State.setReg` -/

section
variable (s : State) (r : Reg) (v : Word)

@[simp] theorem State.setReg_regs : (s.setReg r v).regs = if s.params.zeroReg && r == 0 then s.regs else s.regs.set r v := rfl
@[simp] theorem State.setReg_hi : (s.setReg r v).hi = s.hi := rfl
@[simp] theorem State.setReg_lo : (s.setReg r v).lo = s.lo := rfl
@[simp] theorem State.setReg_pc : (s.setReg r v).pc = s.pc := rfl
@[simp] theorem State.setReg_npc : (s.setReg r v).npc = s.npc := rfl
@[simp] theorem State.setReg_compare : (s.setReg r v).compare = s.compare := rfl
@[simp] theorem State.setReg_marker : (s.setReg r v).marker = s.marker := rfl
@[simp] theorem State.setReg_runState : (s.setReg r v).runState = s.runState := rfl
@[simp] theorem State.setReg_callstack : (s.setReg r v).callstack = s.callstack := rfl
@[simp] theorem State.setReg_subs : (s.setReg r v).subs = s.subs := rfl
@[simp] theorem State.setReg_mem : (s.setReg r v).mem = s.mem := rfl
@[simp] theorem State.setReg_log : (s.setReg r v).log = s.log := rfl
@[simp] theorem State.setReg_returndata : (s.setReg r v).returndata = s.returndata := rfl
@[simp] theorem State.setReg_env : (s.setReg r v).env = s.env := rfl
@[simp] theorem State.setReg_program : (s.setReg r v).program = s.program := rfl
@[simp] theorem State.setReg_dataVec : (s.setReg r v).dataVec = s.dataVec := rfl
@[simp] theorem State.setReg_params : (s.setReg r v).params = s.params := rfl
@[simp] theorem State.setReg_freeCount : (s.setReg r v).freeCount = s.freeCount := rfl

end

/-! ### `State.setHiLo` -/

section
variable (s : State) (a b : Word)

@[simp] theorem State.setHiLo_regs : (s.setHiLo a b).regs = s.regs := rfl
@[simp] theorem State.setHiLo_hi : (s.setHiLo a b).hi = a := rfl
@[simp] theorem State.setHiLo_lo : (s.setHiLo a b).lo = b := rfl
@[simp] theorem State.setHiLo_pc : (s.setHiLo a b).pc = s.pc := rfl
@[simp] theorem State.setHiLo_npc : (s.setHiLo a b).npc = s.npc := rfl
@[simp] theorem State.setHiLo_compare : (s.setHiLo a b).compare = s.compare := rfl
@[simp] theorem State.setHiLo_marker : (s.setHiLo a b).marker = s.marker := rfl
@[simp] theorem State.setHiLo_runState : (s.setHiLo a b).runState = s.runState := rfl
@[simp] theorem State.setHiLo_callstack : (s.setHiLo a b).callstack = s.callstack := rfl
@[simp] theorem State.setHiLo_subs : (s.setHiLo a b).subs = s.subs := rfl
@[simp] theorem State.setHiLo_mem : (s.setHiLo a b).mem = s.mem := rfl
@[simp] theorem State.setHiLo_log : (s.setHiLo a b).log = s.log := rfl
@[simp] theorem State.setHiLo_returndata : (s.setHiLo a b).returndata = s.returndata := rfl
@[simp] theorem State.setHiLo_env : (s.setHiLo a b).env = s.env := rfl
@[simp] theorem State.setHiLo_program : (s.setHiLo a b).program = s.program := rfl
@[simp] theorem State.setHiLo_dataVec : (s.setHiLo a b).dataVec = s.dataVec := rfl
@[simp] theorem State.setHiLo_params : (s.setHiLo a b).params = s.params := rfl
@[simp] theorem State.setHiLo_freeCount : (s.setHiLo a b).freeCount = s.freeCount := rfl

end

/-! ### `State.advanceBy` -/

section
variable (s : State) (k : Int)

@[simp] theorem State.advanceBy_regs : (s.advanceBy k).regs = s.regs := rfl
@[simp] theorem State.advanceBy_hi : (s.advanceBy k).hi = s.hi := rfl
@[simp] theorem State.advanceBy_lo : (s.advanceBy k).lo = s.lo := rfl
@[simp] theorem State.advanceBy_pc : (s.advanceBy k).pc = s.npc := rfl
@[simp] theorem State.advanceBy_npc : (s.advanceBy k).npc = BitVec.ofInt 32 (s.npc.toNat + k) := rfl
@[simp] theorem State.advanceBy_compare : (s.advanceBy k).compare = s.compare := rfl
@[simp] theorem State.advanceBy_marker : (s.advanceBy k).marker = s.marker := rfl
@[simp] theorem State.advanceBy_runState : (s.advanceBy k).runState = s.runState := rfl
@[simp] theorem State.advanceBy_callstack : (s.advanceBy k).callstack = s.callstack := rfl
@[simp] theorem State.advanceBy_subs : (s.advanceBy k).subs = s.subs := rfl
@[simp] theorem State.advanceBy_mem : (s.advanceBy k).mem = s.mem := rfl
@[simp] theorem State.advanceBy_log : (s.advanceBy k).log = s.log := rfl
@[simp] theorem State.advanceBy_returndata : (s.advanceBy k).returndata = s.returndata := rfl
@[simp] theorem State.advanceBy_env : (s.advanceBy k).env = s.env := rfl
@[simp] theorem State.advanceBy_program : (s.advanceBy k).program = s.program := rfl
@[simp] theorem State.advanceBy_dataVec : (s.advanceBy k).dataVec = s.dataVec := rfl
@[simp] theorem State.advanceBy_params : (s.advanceBy k).params = s.params := rfl
@[simp] theorem State.advanceBy_freeCount : (s.advanceBy k).freeCount = s.freeCount := rfl

end

/-! ### `State.advance` -/

section
variable (s : State)

@[simp] theorem State.advance_regs : (s.advance).regs = s.regs := rfl
@[simp] theorem State.advance_hi : (s.advance).hi = s.hi := rfl
@[simp] theorem State.advance_lo : (s.advance).lo = s.lo := rfl
@[simp] theorem State.advance_pc : (s.advance).pc = s.npc := rfl
@[simp] theorem State.advance_npc : (s.advance).npc = BitVec.ofInt 32 (s.npc.toNat + 4) := rfl
@[simp] theorem State.advance_compare : (s.advance).compare = s.compare := rfl
@[simp] theorem State.advance_marker : (s.advance).marker = s.marker := rfl
@[simp] theorem State.advance_runState : (s.advance).runState = s.runState := rfl
@[simp] theorem State.advance_callstack : (s.advance).callstack = s.callstack := rfl
@[simp] theorem State.advance_subs : (s.advance).subs = s.subs := rfl
@[simp] theorem State.advance_mem : (s.advance).mem = s.mem := rfl
@[simp] theorem State.advance_log : (s.advance).log = s.log := rfl
@[simp] theorem State.advance_returndata : (s.advance).returndata = s.returndata := rfl
@[simp] theorem State.advance_env : (s.advance).env = s.env := rfl
@[simp] theorem State.advance_program : (s.advance).program = s.program := rfl
@[simp] theorem State.advance_dataVec : (s.advance).dataVec = s.dataVec := rfl
@[simp] theorem State.advance_params : (s.advance).params = s.params := rfl
@[simp] theorem State.advance_freeCount : (s.advance).freeCount = s.freeCount := rfl

end

/-! ### `State.transfer` -/

section
variable (s : State) (a : CodeAddr)

@[simp] theorem State.transfer_regs : (s.transfer a).regs = s.regs := rfl
@[simp] theorem State.transfer_hi : (s.transfer a).hi = s.hi := rfl
@[simp] theorem State.transfer_lo : (s.transfer a).lo = s.lo := rfl
@[simp] theorem State.transfer_pc : (s.transfer a).pc = s.npc := rfl
@[simp] theorem State.transfer_npc : (s.transfer a).npc = a := rfl
@[simp] theorem State.transfer_compare : (s.transfer a).compare = s.compare := rfl
@[simp] theorem State.transfer_marker : (s.transfer a).marker = s.marker := rfl
@[simp] theorem State.transfer_runState : (s.transfer a).runState = s.runState := rfl
@[simp] theorem State.transfer_callstack : (s.transfer a).callstack = s.callstack := rfl
@[simp] theorem State.transfer_subs : (s.transfer a).subs = s.subs := rfl
@[simp] theorem State.transfer_mem : (s.transfer a).mem = s.mem := rfl
@[simp] theorem State.transfer_log : (s.transfer a).log = s.log := rfl
@[simp] theorem State.transfer_returndata : (s.transfer a).returndata = s.returndata := rfl
@[simp] theorem State.transfer_env : (s.transfer a).env = s.env := rfl
@[simp] theorem State.transfer_program : (s.transfer a).program = s.program := rfl
@[simp] theorem State.transfer_dataVec : (s.transfer a).dataVec = s.dataVec := rfl
@[simp] theorem State.transfer_params : (s.transfer a).params = s.params := rfl
@[simp] theorem State.transfer_freeCount : (s.transfer a).freeCount = s.freeCount := rfl

end

/-! ### `State.halt` -/

section
variable (s : State) (x : RunState)

@[simp] theorem State.halt_regs : (s.halt x).regs = s.regs := rfl
@[simp] theorem State.halt_hi : (s.halt x).hi = s.hi := rfl
@[simp] theorem State.halt_lo : (s.halt x).lo = s.lo := rfl
@[simp] theorem State.halt_pc : (s.halt x).pc = s.pc := rfl
@[simp] theorem State.halt_npc : (s.halt x).npc = s.npc := rfl
@[simp] theorem State.halt_compare : (s.halt x).compare = s.compare := rfl
@[simp] theorem State.halt_marker : (s.halt x).marker = s.marker := rfl
@[simp] theorem State.halt_runState : (s.halt x).runState = x := rfl
@[simp] theorem State.halt_callstack : (s.halt x).callstack = s.callstack := rfl
@[simp] theorem State.halt_subs : (s.halt x).subs = s.subs := rfl
@[simp] theorem State.halt_mem : (s.halt x).mem = s.mem := rfl
@[simp] theorem State.halt_log : (s.halt x).log = s.log := rfl
@[simp] theorem State.halt_returndata : (s.halt x).returndata = s.returndata := rfl
@[simp] theorem State.halt_env : (s.halt x).env = s.env := rfl
@[simp] theorem State.halt_program : (s.halt x).program = s.program := rfl
@[simp] theorem State.halt_dataVec : (s.halt x).dataVec = s.dataVec := rfl
@[simp] theorem State.halt_params : (s.halt x).params = s.params := rfl
@[simp] theorem State.halt_freeCount : (s.halt x).freeCount = s.freeCount := rfl

end

/-! ### `State.pushSub` -/

section
variable (s : State) (a : CodeAddr)

@[simp] theorem State.pushSub_regs : (s.pushSub a).regs = s.regs := rfl
@[simp] theorem State.pushSub_hi : (s.pushSub a).hi = s.hi := rfl
@[simp] theorem State.pushSub_lo : (s.pushSub a).lo = s.lo := rfl
@[simp] theorem State.pushSub_pc : (s.pushSub a).pc = s.pc := rfl
@[simp] theorem State.pushSub_npc : (s.pushSub a).npc = s.npc := rfl
@[simp] theorem State.pushSub_compare : (s.pushSub a).compare = s.compare := rfl
@[simp] theorem State.pushSub_marker : (s.pushSub a).marker = s.marker := rfl
@[simp] theorem State.pushSub_runState : (s.pushSub a).runState = s.runState := rfl
@[simp] theorem State.pushSub_callstack : (s.pushSub a).callstack = s.callstack := rfl
@[simp] theorem State.pushSub_subs : (s.pushSub a).subs = s.subs ++ [a] := rfl
@[simp] theorem State.pushSub_mem : (s.pushSub a).mem = s.mem := rfl
@[simp] theorem State.pushSub_log : (s.pushSub a).log = s.log := rfl
@[simp] theorem State.pushSub_returndata : (s.pushSub a).returndata = s.returndata := rfl
@[simp] theorem State.pushSub_env : (s.pushSub a).env = s.env := rfl
@[simp] theorem State.pushSub_program : (s.pushSub a).program = s.program := rfl
@[simp] theorem State.pushSub_dataVec : (s.pushSub a).dataVec = s.dataVec := rfl
@[simp] theorem State.pushSub_params : (s.pushSub a).params = s.params := rfl
@[simp] theorem State.pushSub_freeCount : (s.pushSub a).freeCount = s.freeCount := rfl

end

/-! ### `State.pushLog` -/

section
variable (s : State) (e : LogEntry)

@[simp] theorem State.pushLog_regs : (s.pushLog e).regs = s.regs := rfl
@[simp] theorem State.pushLog_hi : (s.pushLog e).hi = s.hi := rfl
@[simp] theorem State.pushLog_lo : (s.pushLog e).lo = s.lo := rfl
@[simp] theorem State.pushLog_pc : (s.pushLog e).pc = s.pc := rfl
@[simp] theorem State.pushLog_npc : (s.pushLog e).npc = s.npc := rfl
@[simp] theorem State.pushLog_compare : (s.pushLog e).compare = s.compare := rfl
@[simp] theorem State.pushLog_marker : (s.pushLog e).marker = s.marker := rfl
@[simp] theorem State.pushLog_runState : (s.pushLog e).runState = s.runState := rfl
@[simp] theorem State.pushLog_callstack : (s.pushLog e).callstack = s.callstack := rfl
@[simp] theorem State.pushLog_subs : (s.pushLog e).subs = s.subs := rfl
@[simp] theorem State.pushLog_mem : (s.pushLog e).mem = s.mem := rfl
@[simp] theorem State.pushLog_log : (s.pushLog e).log = s.log ++ [e] := rfl
@[simp] theorem State.pushLog_returndata : (s.pushLog e).returndata = s.returndata := rfl
@[simp] theorem State.pushLog_env : (s.pushLog e).env = s.env := rfl
@[simp] theorem State.pushLog_program : (s.pushLog e).program = s.program := rfl
@[simp] theorem State.pushLog_dataVec : (s.pushLog e).dataVec = s.dataVec := rfl
@[simp] theorem State.pushLog_params : (s.pushLog e).params = s.params := rfl
@[simp] theorem State.pushLog_freeCount : (s.pushLog e).freeCount = s.freeCount := rfl

end

/-! ### `State.setReturndata` -/

section
variable (s : State) (b : List Byte)

@[simp] theorem State.setReturndata_regs : (s.setReturndata b).regs = s.regs := rfl
@[simp] theorem State.setReturndata_hi : (s.setReturndata b).hi = s.hi := rfl
@[simp] theorem State.setReturndata_lo : (s.setReturndata b).lo = s.lo := rfl
@[simp] theorem State.setReturndata_pc : (s.setReturndata b).pc = s.pc := rfl
@[simp] theorem State.setReturndata_npc : (s.setReturndata b).npc = s.npc := rfl
@[simp] theorem State.setReturndata_compare : (s.setReturndata b).compare = s.compare := rfl
@[simp] theorem State.setReturndata_marker : (s.setReturndata b).marker = s.marker := rfl
@[simp] theorem State.setReturndata_runState : (s.setReturndata b).runState = s.runState := rfl
@[simp] theorem State.setReturndata_callstack : (s.setReturndata b).callstack = s.callstack := rfl
@[simp] theorem State.setReturndata_subs : (s.setReturndata b).subs = s.subs := rfl
@[simp] theorem State.setReturndata_mem : (s.setReturndata b).mem = s.mem := rfl
@[simp] theorem State.setReturndata_log : (s.setReturndata b).log = s.log := rfl
@[simp] theorem State.setReturndata_returndata : (s.setReturndata b).returndata = b := rfl
@[simp] theorem State.setReturndata_env : (s.setReturndata b).env = s.env := rfl
@[simp] theorem State.setReturndata_program : (s.setReturndata b).program = s.program := rfl
@[simp] theorem State.setReturndata_dataVec : (s.setReturndata b).dataVec = s.dataVec := rfl
@[simp] theorem State.setReturndata_params : (s.setReturndata b).params = s.params := rfl
@[simp] theorem State.setReturndata_freeCount : (s.setReturndata b).freeCount = s.freeCount := rfl

end

/-! ### `State.setWorld` -/

section
variable (s : State) (g : Word) (b : Table Word)

@[simp] theorem State.setWorld_regs : (s.setWorld g b).regs = s.regs := rfl
@[simp] theorem State.setWorld_hi : (s.setWorld g b).hi = s.hi := rfl
@[simp] theorem State.setWorld_lo : (s.setWorld g b).lo = s.lo := rfl
@[simp] theorem State.setWorld_pc : (s.setWorld g b).pc = s.pc := rfl
@[simp] theorem State.setWorld_npc : (s.setWorld g b).npc = s.npc := rfl
@[simp] theorem State.setWorld_compare : (s.setWorld g b).compare = s.compare := rfl
@[simp] theorem State.setWorld_marker : (s.setWorld g b).marker = s.marker := rfl
@[simp] theorem State.setWorld_runState : (s.setWorld g b).runState = s.runState := rfl
@[simp] theorem State.setWorld_callstack : (s.setWorld g b).callstack = s.callstack := rfl
@[simp] theorem State.setWorld_subs : (s.setWorld g b).subs = s.subs := rfl
@[simp] theorem State.setWorld_mem : (s.setWorld g b).mem = s.mem := rfl
@[simp] theorem State.setWorld_log : (s.setWorld g b).log = s.log := rfl
@[simp] theorem State.setWorld_returndata : (s.setWorld g b).returndata = s.returndata := rfl
@[simp] theorem State.setWorld_env : (s.setWorld g b).env = { s.env with gas := g, balance := b } := rfl
@[simp] theorem State.setWorld_program : (s.setWorld g b).program = s.program := rfl
@[simp] theorem State.setWorld_dataVec : (s.setWorld g b).dataVec = s.dataVec := rfl
@[simp] theorem State.setWorld_params : (s.setWorld g b).params = s.params := rfl
@[simp] theorem State.setWorld_freeCount : (s.setWorld g b).freeCount = s.freeCount := rfl

end

/-! ### `State.consulted` -/

section
variable (s : State)

@[simp] theorem State.consulted_regs : (s.consulted).regs = s.regs := rfl
@[simp] theorem State.consulted_hi : (s.consulted).hi = s.hi := rfl
@[simp] theorem State.consulted_lo : (s.consulted).lo = s.lo := rfl
@[simp] theorem State.consulted_pc : (s.consulted).pc = s.pc := rfl
@[simp] theorem State.consulted_npc : (s.consulted).npc = s.npc := rfl
@[simp] theorem State.consulted_compare : (s.consulted).compare = s.compare := rfl
@[simp] theorem State.consulted_marker : (s.consulted).marker = s.marker := rfl
@[simp] theorem State.consulted_runState : (s.consulted).runState = s.runState := rfl
@[simp] theorem State.consulted_callstack : (s.consulted).callstack = s.callstack := rfl
@[simp] theorem State.consulted_subs : (s.consulted).subs = s.subs := rfl
@[simp] theorem State.consulted_mem : (s.consulted).mem = s.mem := rfl
@[simp] theorem State.consulted_log : (s.consulted).log = s.log := rfl
@[simp] theorem State.consulted_returndata : (s.consulted).returndata = s.returndata := rfl
@[simp] theorem State.consulted_env : (s.consulted).env = s.env := rfl
@[simp] theorem State.consulted_program : (s.consulted).program = s.program := rfl
@[simp] theorem State.consulted_dataVec : (s.consulted).dataVec = s.dataVec := rfl
@[simp] theorem State.consulted_params : (s.consulted).params = s.params := rfl
@[simp] theorem State.consulted_freeCount : (s.consulted).freeCount = s.freeCount + 1 := rfl

end

/-! ### Every operation leaves the readers of other parts alone -/

@[simp] theorem State.advanceBy_reg (s : State) (k : Int) (r : Reg) :
    (s.advanceBy k).reg r = s.reg r := rfl
@[simp] theorem State.advance_reg (s : State) (r : Reg) : s.advance.reg r = s.reg r := rfl
@[simp] theorem State.transfer_reg (s : State) (a : CodeAddr) (r : Reg) :
    (s.transfer a).reg r = s.reg r := rfl
@[simp] theorem State.halt_reg (s : State) (x : RunState) (r : Reg) :
    (s.halt x).reg r = s.reg r := rfl
@[simp] theorem State.setHiLo_reg (s : State) (a b : Word) (r : Reg) :
    (s.setHiLo a b).reg r = s.reg r := rfl
@[simp] theorem State.pushSub_reg (s : State) (a : CodeAddr) (r : Reg) :
    (s.pushSub a).reg r = s.reg r := rfl
@[simp] theorem State.pushLog_reg (s : State) (e : LogEntry) (r : Reg) :
    (s.pushLog e).reg r = s.reg r := rfl
@[simp] theorem State.setReturndata_reg (s : State) (b : List Byte) (r : Reg) :
    (s.setReturndata b).reg r = s.reg r := rfl
@[simp] theorem State.setWorld_reg (s : State) (g : Word) (b : Table Word) (r : Reg) :
    (s.setWorld g b).reg r = s.reg r := rfl
@[simp] theorem State.consulted_reg (s : State) (r : Reg) : s.consulted.reg r = s.reg r := rfl

@[simp] theorem State.setReg_byte (s : State) (r : Reg) (v : Word) (a : Nat) :
    (s.setReg r v).byte a = s.byte a := rfl
@[simp] theorem State.setHiLo_byte (s : State) (x y : Word) (a : Nat) :
    (s.setHiLo x y).byte a = s.byte a := rfl
@[simp] theorem State.advanceBy_byte (s : State) (k : Int) (a : Nat) :
    (s.advanceBy k).byte a = s.byte a := rfl
@[simp] theorem State.advance_byte (s : State) (a : Nat) : s.advance.byte a = s.byte a := rfl
@[simp] theorem State.transfer_byte (s : State) (t : CodeAddr) (a : Nat) :
    (s.transfer t).byte a = s.byte a := rfl
@[simp] theorem State.halt_byte (s : State) (x : RunState) (a : Nat) :
    (s.halt x).byte a = s.byte a := rfl
@[simp] theorem State.pushSub_byte (s : State) (t : CodeAddr) (a : Nat) :
    (s.pushSub t).byte a = s.byte a := rfl
@[simp] theorem State.pushLog_byte (s : State) (e : LogEntry) (a : Nat) :
    (s.pushLog e).byte a = s.byte a := rfl
@[simp] theorem State.setReturndata_byte (s : State) (b : List Byte) (a : Nat) :
    (s.setReturndata b).byte a = s.byte a := rfl
@[simp] theorem State.setWorld_byte (s : State) (g : Word) (b : Table Word) (a : Nat) :
    (s.setWorld g b).byte a = s.byte a := rfl
@[simp] theorem State.consulted_byte (s : State) (a : Nat) : s.consulted.byte a = s.byte a := rfl

/-! ### The register file (10_state.md R10) -/

/-- A read of the register that was written: the value, or zero where register 0 is hard-wired. -/
theorem State.reg_setReg_self (s : State) (r : Reg) (v : Word) :
    (s.setReg r v).reg r = if s.params.zeroReg && r == 0 then 0 else v := by
  unfold State.reg State.setReg
  split <;> simp_all [Vector.get_eq_getElem]

/-- A read of another register. -/
theorem State.reg_setReg_of_ne (s : State) (r q : Reg) (v : Word) (h : q ≠ r) :
    (s.setReg r v).reg q = s.reg q := by
  have hv : (r : Nat) ≠ q := fun e => h (Fin.ext e.symm)
  unfold State.reg State.setReg
  by_cases hz : (s.params.zeroReg && r == 0) = true
  · simp [hz]
  · simp [hz, Vector.get_eq_getElem, Vector.getElem_set_ne, hv]

/-- Register 0 reads as zero where `ZERO_REG` holds. -/
theorem State.reg_zero_of_zeroReg (s : State) (h : s.params.zeroReg = true) : s.reg 0 = 0 := by
  simp [State.reg, h]

end Sys2Proof.Machine
end

