-- ==== Sys2Proof/Laws/Ops.lean ====
section
/-! SUPPORT. For each shared operation, what it can do, said once in the terms of Safety.lean. -/

namespace Sys2Proof.Machine

/-! ### The counters -/

/-- `nPC + 4` modulo 2^32 (10_state.md R14). -/
theorem ofInt_add_four (a : CodeAddr) : BitVec.ofInt 32 ((a.toNat : Int) + 4) = a + 4 := by
  apply BitVec.eq_of_toNat_eq
  rw [BitVec.toNat_ofInt, BitVec.toNat_add]
  simp only [BitVec.toNat_ofNat, BitVec.ofNat_eq_ofNat]
  omega

/-- `advance()` goes on at the delay slot. -/
theorem sequential_advance (s : State) : Sequential s s.advance :=
  ⟨rfl, rfl, ofInt_add_four s.npc⟩

/-- A transfer goes on at the delay slot. -/
theorem transfersTo_transfer (s : State) (a : CodeAddr) : TransfersTo a s (s.transfer a) :=
  ⟨rfl, rfl, rfl⟩

theorem onlyAdvances_advance (s : State) : OnlyAdvances s s.advance :=
  ⟨⟨fun _ => rfl, ⟨rfl, rfl⟩, fun _ => rfl, rfl, ⟨rfl, rfl, rfl, rfl, rfl⟩⟩, ⟨rfl, rfl, rfl, rfl⟩,
    sequential_advance s⟩

theorem onlyTransfers_transfer (s : State) (a : CodeAddr) : OnlyTransfers a s (s.transfer a) :=
  ⟨⟨fun _ => rfl, ⟨rfl, rfl⟩, fun _ => rfl, rfl, ⟨rfl, rfl, rfl, rfl, rfl⟩⟩, ⟨rfl, rfl, rfl, rfl⟩,
    transfersTo_transfer s a⟩

theorem onlyEnds_halt (s : State) (r : RunState) : OnlyEnds r s (s.halt r) :=
  ⟨rfl, ⟨fun _ => rfl, ⟨rfl, rfl⟩, fun _ => rfl, rfl, ⟨rfl, rfl, rfl, rfl, rfl⟩⟩,
    ⟨rfl, rfl, rfl, rfl⟩, rfl, rfl⟩

/-! ### Faults -/

@[simp] theorem raise_eq (c : Cause) (s : State) : raise c s = .next (s.faultedWith c) := rfl

@[simp] theorem orRaise_ok {α : Type} (v : α) (s : State) (k : α → Result) :
    orRaise (.ok v) s k = k v := rfl

@[simp] theorem orRaise_error {α : Type} (c : Cause) (s : State) (k : α → Result) :
    orRaise (.error c) s k = .next (s.faultedWith c) := rfl

/-- Every next state of an operation that may fault: the fault, or a next state of what follows. -/
theorem orRaise_eq_next {α : Type} (r : Except Cause α) (s t : State) (k : α → Result)
    (h : orRaise r s k = .next t) :
    (∃ v, r = .ok v ∧ k v = .next t) ∨ (∃ c, r = .error c ∧ t = s.faultedWith c) := by
  cases r with
  | ok v => exact .inl ⟨v, rfl, h⟩
  | error c =>
    rw [orRaise_error, Host.Outcome.next.injEq] at h
    exact .inr ⟨c, rfl, h.symm⟩

/-! ### Registers -/

theorem holds_setReg (s : State) (rd : Reg) (v : Word) : Holds rd v s (s.setReg rd v) := by
  unfold Holds
  rw [State.reg_setReg_self]
  simp [Bool.and_eq_true]

/-- Every next state of an instruction that ends in a register. -/
theorem writesReg_writeBack (s : State) (rd : Reg) (v : Word) :
    WritesReg rd v s (s.setReg rd v).advance where
  result := holds_setReg s rd v
  regs := fun r hr => State.reg_setReg_of_ne s rd r v hr
  hiLo := ⟨rfl, rfl⟩
  memory := fun _ => rfl
  lists := ⟨rfl, rfl, rfl, rfl⟩
  env := rfl
  inputs := ⟨rfl, rfl, rfl, rfl, rfl⟩
  counters := ⟨rfl, rfl, ofInt_add_four s.npc⟩

theorem writeBack_eq (rd : Reg) (v : Word) (s : State) :
    writeBack rd v s = .next (s.setReg rd v).advance := rfl

/-! ### Data memory -/

theorem bytesAt_eq (s : State) (addr n : Nat) :
    s.bytesAt addr n = Memory.readBytes s.mem addr n := by
  rw [Memory.readBytes_eq_map]
  rfl

theorem foldl_bigEndian (bytes : List Byte) (acc : Nat) :
    bytes.foldl (fun acc b => acc * 256 + b.toNat) acc = acc * 256 ^ bytes.length + beNat bytes := by
  induction bytes generalizing acc with
  | nil => simp [beNat]
  | cons b bs ih =>
    rw [List.foldl_cons, ih, beNat_cons, List.length_cons, Nat.pow_succ]
    ring

/-- The number read from the first byte on is the number whose most significant byte is the first. -/
theorem bigEndian_eq (bytes : List Byte) : bigEndian bytes = beNat bytes := by
  rw [bigEndian, foldl_bigEndian]
  simp

theorem numberAt_eq (s : State) (addr n : Nat) :
    s.numberAt addr n = beNat (Memory.readBytes s.mem addr n) := by
  rw [State.numberAt, bytesAt_eq, bigEndian_eq]

/-- A number of `n` bytes of memory. -/
theorem numberAt_lt (s : State) (addr n : Nat) : s.numberAt addr n < 256 ^ n := by
  rw [numberAt_eq]
  simpa using beNat_lt (Memory.readBytes s.mem addr n)

theorem inMemory_iff (s : State) (addr n : Nat) : s.inMemory addr n = true ↔ s.Fits addr n := by
  simp [State.inMemory, State.Fits]

theorem memRead_of_fits (s : State) (addr n : Nat) (h : s.Fits addr n) :
    s.memRead addr n = .ok (Memory.readBytes s.mem addr n) := by
  rw [State.memRead, if_pos ((inMemory_iff s addr n).mpr h)]

theorem memRead_of_not_fits (s : State) (addr n : Nat) (h : ¬s.Fits addr n) :
    s.memRead addr n = .error (.memoryFault addr n) := by
  rw [State.memRead, if_neg (fun c => h ((inMemory_iff s addr n).mp c))]

theorem memWrite_of_fits (s : State) (addr : Nat) (bytes : List Byte) (h : s.Fits addr bytes.length) :
    s.memWrite addr bytes = .ok { s with mem := Memory.writeBytes s.mem addr bytes } := by
  rw [State.memWrite, if_pos ((inMemory_iff _ _ _).mpr h)]

theorem memWrite_of_not_fits (s : State) (addr : Nat) (bytes : List Byte)
    (h : ¬s.Fits addr bytes.length) :
    s.memWrite addr bytes = .error (.memoryFault addr bytes.length) := by
  rw [State.memWrite, if_neg (fun c => h ((inMemory_iff _ _ _).mp c))]

/-- The state a store that fits leaves. -/
theorem writesMemory_writeBytes (s : State) (addr : Nat) (bytes : List Byte) :
    WritesMemory addr bytes s
      (State.advance { s with mem := Memory.writeBytes s.mem addr bytes }) where
  stored := fun k h => Memory.read_writeBytes_inside s.mem addr k bytes h
  memory := fun a h => Memory.read_writeBytes_outside s.mem addr a bytes h
  regs := fun _ => rfl
  hiLo := ⟨rfl, rfl⟩
  lists := ⟨rfl, rfl, rfl, rfl⟩
  env := rfl
  inputs := ⟨rfl, rfl, rfl, rfl, rfl⟩
  counters := ⟨rfl, rfl, ofInt_add_four s.npc⟩

theorem store_of_fits (addr : Nat) (bytes : List Byte) (s : State) (h : s.Fits addr bytes.length) :
    store addr bytes s =
      .next (State.advance { s with mem := Memory.writeBytes s.mem addr bytes }) := by
  rw [store, memWrite_of_fits s addr bytes h, orRaise_ok]

theorem store_of_not_fits (addr : Nat) (bytes : List Byte) (s : State)
    (h : ¬s.Fits addr bytes.length) :
    store addr bytes s = .next (s.faultedWith (.memoryFault addr bytes.length)) := by
  rw [store, memWrite_of_not_fits s addr bytes h, orRaise_error]

/-- Every next state of a store. -/
theorem store_eq_next (addr : Nat) (bytes : List Byte) (s t : State)
    (h : store addr bytes s = .next t) :
    (s.Fits addr bytes.length ∧
      t = State.advance { s with mem := Memory.writeBytes s.mem addr bytes }) ∨
    (¬s.Fits addr bytes.length ∧ t = s.faultedWith (.memoryFault addr bytes.length)) := by
  by_cases hf : s.Fits addr bytes.length
  · rw [store_of_fits addr bytes s hf, Host.Outcome.next.injEq] at h
    exact .inl ⟨hf, h.symm⟩
  · rw [store_of_not_fits addr bytes s hf, Host.Outcome.next.injEq] at h
    exact .inr ⟨hf, h.symm⟩

/-! ### Byte strings and the copies -/

theorem stringRead_of_le (bytes : List Byte) (o n : Nat) (h : n = 0 ∨ o + n ≤ bytes.length) :
    stringRead bytes o n = .ok ((bytes.drop o).take n) := by
  rw [stringRead, if_pos (by simpa using h)]

theorem stringRead_of_lt (bytes : List Byte) (o n : Nat) (h0 : 0 < n) (h : bytes.length < o + n) :
    stringRead bytes o n = .error (.envRangeFault o n) := by
  rw [stringRead, if_neg]
  simp only [Bool.or_eq_true, beq_iff_eq, decide_eq_true_eq, not_or]
  omega

/-! ### The lists -/

theorem push_of_room (s : State) (a : CodeAddr)
    (h : ∀ n, s.params.callstackMax = some n → s.callstack.length < n) :
    s.push a = .ok { s with callstack := a :: s.callstack } := by
  unfold State.push
  split
  · rfl
  · rename_i n hn
    rw [if_pos (h n hn)]

theorem push_of_full (s : State) (a : CodeAddr) (n : Nat) (hn : s.params.callstackMax = some n)
    (h : n ≤ s.callstack.length) : s.push a = .error .callStackOverflow := by
  unfold State.push
  rw [hn]
  exact if_neg (by omega)

theorem pop_nil (s : State) (h : s.callstack = []) : s.pop = .error .callStackUnderflow := by
  rw [State.pop, h]

theorem pop_cons (s : State) (a : CodeAddr) (rest : List CodeAddr) (h : s.callstack = a :: rest) :
    s.pop = .ok (a, { s with callstack := rest }) := by
  rw [State.pop, h]

theorem dataEntry_some (s : State) (k : Int) (a : CodeAddr) (hk : 0 ≤ k)
    (h : s.dataVec.lookup k.toNat = some a) : s.dataEntry k = .ok a := by
  rw [State.dataEntry, if_neg (by omega), h]

theorem dataEntry_none (s : State) (k : Int) (h : k < 0 ∨ s.dataVec.lookup k.toNat = none) :
    s.dataEntry k = .error (.dataRangeFault k) := by
  unfold State.dataEntry
  split
  · rfl
  · rename_i hk
    rw [h.resolve_left hk]

/-! ### SIMD contexts -/

theorem simdShape_of_hasShape (s : State) (ctx : Slot) (sh : SimdShape) (h : s.HasShape ctx sh) :
    s.simdShape ctx = .ok sh := by
  obtain ⟨hl, h8, hlo, hhi, hn⟩ := h
  rw [State.simdShape, hl]
  exact if_pos (by simp [SimdShape.valid, h8, hlo, hhi, hn])

theorem simdShape_of_no_shape (s : State) (ctx : Slot) (h : ∀ sh, ¬s.HasShape ctx sh) :
    s.simdShape ctx = .error .simdFault := by
  unfold State.simdShape
  split
  · rename_i sh hl
    refine if_neg fun hv => h sh ⟨hl, ?_⟩
    simp only [SimdShape.valid, Bool.and_eq_true, beq_iff_eq, decide_eq_true_eq] at hv
    exact ⟨hv.1.1.1, hv.1.1.2, hv.1.2, hv.2⟩
  · rfl

theorem vecRead_of_fits (s : State) (sh : SimdShape) (addr : Nat)
    (h : addr + vectorBytes sh ≤ s.params.memSize) :
    s.vecRead sh addr =
      .ok (lanesOf sh.laneBits (laneBytes sh) (Memory.readBytes s.mem addr (vectorBytes sh))
        sh.laneCount) := by
  rw [State.vecRead, memRead_of_fits s addr _ (.inr h)]

theorem vecRead_of_not_fits (s : State) (sh : SimdShape) (addr : Nat)
    (h : ¬s.Fits addr (vectorBytes sh)) :
    s.vecRead sh addr = .error (.memoryFault addr (vectorBytes sh)) := by
  rw [State.vecRead, memRead_of_not_fits s addr _ h]

/-- The lane width in bits is 8 times the lane size in bytes. -/
theorem pow_laneBits (sh : SimdShape) (h : sh.laneBits % 8 = 0) :
    256 ^ (sh.laneBits / 8) = 2 ^ sh.laneBits := by
  rw [show 256 = 2 ^ 8 from rfl, ← Nat.pow_mul]
  congr 1
  omega

/-- Lane `i` of a vector that was read is the lane of memory. -/
theorem toNat_lane (s : State) (sh : SimdShape) (addr i : Nat) (h : sh.laneBits % 8 = 0)
    (hi : i < sh.laneCount) :
    ((lanesOf sh.laneBits (laneBytes sh) (Memory.readBytes s.mem addr (vectorBytes sh))
      sh.laneCount)[i]'(by simpa using hi)).toNat = s.lane sh addr i := by
  have hl := numberAt_lt s (addr + i * (sh.laneBits / 8)) (sh.laneBits / 8)
  rw [pow_laneBits sh h, numberAt_eq] at hl
  have := getElem_lanesOf_readBytes s.mem sh.laneBits (laneBytes sh) addr sh.laneCount i hi
  rw [show vectorBytes sh = sh.laneCount * laneBytes sh from rfl, this, State.lane, numberAt_eq,
    BitVec.toNat_ofNat, laneBytes, Nat.mod_eq_of_lt hl]

/-- The state a vector store that fits leaves: every lane is the lane that was written. -/
theorem writesLanes_writeBytes (s : State) (sh : SimdShape) (addr : Nat)
    (r : List (BitVec sh.laneBits)) (f : Nat → Nat) (h : sh.laneBits % 8 = 0)
    (hr : r.length = sh.laneCount)
    (hf : ∀ i (hi : i < sh.laneCount), (r[i]'(by omega)).toNat = f i) :
    WritesLanes sh addr f s
      (State.advance
        { s with mem := Memory.writeBytes s.mem addr (bytesOfLanes (laneBytes sh) r) }) := by
  have hlen : (bytesOfLanes (laneBytes sh) r).length = sh.laneCount * (sh.laneBits / 8) := by
    rw [length_bytesOfLanes, hr, laneBytes]
  refine ⟨fun i hi => ?_, fun a ha => ?_, fun _ => rfl, ⟨rfl, rfl⟩, ⟨rfl, rfl, rfl, rfl⟩, rfl,
    ⟨rfl, rfl, rfl, rfl, rfl⟩, ⟨rfl, rfl, ofInt_add_four s.npc⟩⟩
  · have hmul : i * (sh.laneBits / 8) + sh.laneBits / 8 ≤ sh.laneCount * (sh.laneBits / 8) := by
      rw [← Nat.succ_mul]; exact Nat.mul_le_mul_right _ hi
    have hb : Memory.readBytes
        (Memory.writeBytes s.mem addr (bytesOfLanes (laneBytes sh) r))
        (addr + i * (sh.laneBits / 8)) (sh.laneBits / 8) =
        ((bytesOfLanes (laneBytes sh) r).drop (i * laneBytes sh)).take (laneBytes sh) := by
      apply List.ext_getElem
      · rw [Memory.length_readBytes, List.length_take, List.length_drop, hlen, laneBytes]; omega
      · intro k h1 h2
        rw [Memory.length_readBytes] at h1
        rw [List.getElem_take, List.getElem_drop]
        simp only [Memory.readBytes_eq_map, List.getElem_map, List.getElem_range, Nat.add_assoc]
        exact Memory.read_writeBytes_inside _ _ _ _ (by rw [hlen]; omega)
    rw [State.lane, numberAt_eq, State.advance_mem, hb,
      take_drop_bytesOfLanes _ _ _ (by omega), beNat_bytesBE, laneBytes, pow_laneBits sh h,
      Nat.mod_eq_of_lt (r[i]'(by omega)).isLt, hf i hi]
  · exact Memory.read_writeBytes_outside _ _ _ _ (by rw [hlen]; exact ha)

end Sys2Proof.Machine
end

