-- ==== Sys2Proof/Laws/Families.lean ====
section
/-! SUPPORT. What the operations that the instructions of one family share can do, each said once. -/

namespace Sys2Proof.Machine

/-! ### Arithmetic (40_alu_arith.md, 44_alu_evm_arith.md) -/

theorem fitsWord_iff (r : Int) : fitsWord r = true ↔ -(2 ^ 255) ≤ r ∧ r ≤ 2 ^ 255 - 1 := by
  rw [fitsWord, Bool.and_eq_true, decide_eq_true_eq, decide_eq_true_eq]; rfl

theorem toInt_ofInt_of_fits (r : Int) (h : -(2 ^ 255) ≤ r ∧ r ≤ 2 ^ 255 - 1) :
    (BitVec.ofInt 256 r).toInt = r := by
  rw [BitVec.toInt_ofInt, Int.bmod_eq_of_le] <;> push_cast <;> omega

theorem writeChecked_of_fits (rd : Reg) (r : Int) (s : State) (h : -(2 ^ 255) ≤ r ∧ r ≤ 2 ^ 255 - 1) :
    writeChecked rd r s = .next (s.setReg rd (BitVec.ofInt 256 r)).advance := by
  rw [writeChecked, if_pos ((fitsWord_iff r).2 h), writeBack_eq]

theorem writeChecked_of_not_fits (rd : Reg) (r : Int) (s : State)
    (h : r < -(2 ^ 255) ∨ 2 ^ 255 - 1 < r) : writeChecked rd r s = .next (s.faultedWith .overflow) := by
  rw [writeChecked, if_neg (by rw [fitsWord_iff]; omega), raise_eq]

theorem writesHiLo_setHiLo (hi lo : Word) (s : State) :
    WritesHiLo hi lo s (s.setHiLo hi lo).advance :=
  ⟨rfl, rfl, fun _ => rfl, fun _ => rfl, ⟨rfl, rfl, rfl, rfl⟩, rfl, ⟨rfl, rfl, rfl, rfl, rfl⟩,
    ⟨rfl, rfl, ofInt_add_four s.npc⟩⟩

theorem writesRegHiLo_writeModulo (rd : Reg) (q r : Word) (s : State) :
    WritesRegHiLo rd r r q s ((s.setHiLo r q).setReg rd r).advance where
  result := holds_setReg (s.setHiLo r q) rd r
  regs := fun k hk => State.reg_setReg_of_ne (s.setHiLo r q) rd k r hk
  hi := rfl
  lo := rfl
  memory := fun _ => rfl
  lists := ⟨rfl, rfl, rfl, rfl⟩
  env := rfl
  inputs := ⟨rfl, rfl, rfl, rfl, rfl⟩
  counters := ⟨rfl, rfl, ofInt_add_four s.npc⟩

theorem toNat_unsignedQuotient {w : Nat} (a b : BitVec w) :
    (unsignedQuotient a b).toNat = a.toNat / b.toNat := by
  rw [unsignedQuotient, BitVec.toNat_ofNat,
    Nat.mod_eq_of_lt (Nat.lt_of_le_of_lt (Nat.div_le_self _ _) a.isLt)]

theorem toNat_unsignedRemainder {w : Nat} (a b : BitVec w) :
    (unsignedRemainder a b).toNat = a.toNat % b.toNat := by
  rw [unsignedRemainder, BitVec.toNat_ofNat,
    Nat.mod_eq_of_lt (Nat.lt_of_le_of_lt (Nat.mod_le _ _) a.isLt)]

theorem moduloUnsigned_zero (rd : Reg) (t m : Word) (s : State) (h : m.toNat = 0) :
    moduloUnsigned rd t m s = .next (s.faultedWith .divideByZero) := by
  rw [moduloUnsigned, if_pos h, raise_eq]

theorem moduloUnsigned_pos (rd : Reg) (t m : Word) (s : State) (h : m.toNat ≠ 0) :
    moduloUnsigned rd t m s =
      .next ((s.setHiLo (unsignedRemainder t m) (unsignedQuotient t m)).setReg rd
        (unsignedRemainder t m)).advance := by
  rw [moduloUnsigned, if_neg h, writeModulo, writeBack_eq]

theorem moduloSigned_zero (rd : Reg) (a : Int) (s : State) :
    moduloSigned rd a 0 s = .next (s.faultedWith .divideByZero) := by
  rw [moduloSigned, if_pos rfl, raise_eq]

theorem moduloSigned_ne (rd : Reg) (a m : Int) (s : State) (h : m ≠ 0) :
    moduloSigned rd a m s =
      .next ((s.setHiLo (signedRemainder a m) (signedQuotient a m)).setReg rd
        (signedRemainder a m)).advance := by
  rw [moduloSigned, if_neg h, writeModulo, writeBack_eq]

/-! ### Control transfer (42_alu_control.md) -/

theorem branchIf_false (off : BitVec 24) (s : State) : branchIf false off s = .next s.advance := rfl

theorem branchIf_true (off : BitVec 24) (s : State) :
    branchIf true off s = .next (s.transfer (BitVec.ofInt 32 (s.npc.toNat + 4 * off.toInt))) := by
  rw [branchIf, if_pos rfl, State.advanceBy, branchDisplacement, signedImm, Int.mul_comm]
  rfl

theorem branchLinkIf_false (off : BitVec 24) (s : State) :
    branchLinkIf false off s = .next s.advance := rfl

theorem branchLinkIf_true (off : BitVec 24) (s : State) :
    branchLinkIf true off s =
      .next ((s.setReg linkRegister (linkValue s.pc 12)).transfer
        (BitVec.ofInt 32 (s.npc.toNat + 4 * off.toInt))) := by
  rw [branchLinkIf, if_pos rfl, State.advanceBy, branchDisplacement, signedImm, Int.mul_comm]
  rfl

theorem toNat_linkValue (pc : CodeAddr) (k : Nat) : (linkValue pc k).toNat = (pc.toNat + k) % 2 ^ 32 := by
  rw [linkValue, BitVec.toNat_setWidth, BitVec.toNat_ofNat]; omega

theorem linksAndTransfers_setReg (v : Word) (a : CodeAddr) (s : State) :
    LinksAndTransfers v a s ((s.setReg 31 v).transfer a) where
  result := holds_setReg s 31 v
  regs := fun r hr => State.reg_setReg_of_ne s 31 r v hr
  hiLo := ⟨rfl, rfl⟩
  memory := fun _ => rfl
  lists := ⟨rfl, rfl, rfl, rfl⟩
  env := rfl
  inputs := ⟨rfl, rfl, rfl, rfl, rfl⟩
  counters := ⟨rfl, rfl, rfl⟩

/-! ### Copies (45_ethereum_env.md) -/

theorem copyToMemory_past_string (bytes : List Byte) (d o n : Nat) (s : State) (h0 : 0 < n)
    (h : bytes.length < o + n) :
    copyToMemory bytes d o n s = .next (s.faultedWith (.envRangeFault o n)) := by
  rw [copyToMemory, stringRead_of_lt _ _ _ h0 h, orRaise_error]

theorem length_take_drop (bytes : List Byte) (o n : Nat) (h : n = 0 ∨ o + n ≤ bytes.length) :
    ((bytes.drop o).take n).length = n := by
  rw [List.length_take, List.length_drop]; omega

theorem copyToMemory_in_string (bytes : List Byte) (d o n : Nat) (s : State)
    (h : n = 0 ∨ o + n ≤ bytes.length) :
    copyToMemory bytes d o n s = store d ((bytes.drop o).take n) s := by
  rw [copyToMemory, stringRead_of_le _ _ _ h, orRaise_ok]

/-! ### Calls and logs (46_ethereum_calls_logs.md) -/

/-- The block in 224 bytes of memory is the seven words of memory. -/
theorem callBlock_readBytes (s : State) (p : Nat) :
    callBlock (Memory.readBytes s.mem p 224) =
      ⟨s.numberAt p 32, s.numberAt (p + 32) 32, s.numberAt (p + 64) 32, s.numberAt (p + 96) 32,
        s.numberAt (p + 128) 32, s.numberAt (p + 160) 32, s.numberAt (p + 192) 32⟩ := by
  simp only [numberAt_eq]
  rw [callBlock, wordAt_readBytes _ _ _ _ (by omega), wordAt_readBytes _ _ _ _ (by omega),
    wordAt_readBytes _ _ _ _ (by omega), wordAt_readBytes _ _ _ _ (by omega),
    wordAt_readBytes _ _ _ _ (by omega), wordAt_readBytes _ _ _ _ (by omega),
    wordAt_readBytes _ _ _ _ (by omega)]
  rfl

/-- What a message call that passes its checks leaves of memory. -/
theorem finishCall_byte (rd : Reg) (allowed : Nat → Bool) (ans : CallAnswer) (s t : State)
    (h : finishCall rd allowed ans s = .next t) (a : Nat) :
    t.byte a = if allowed a = true then (ans.writes.reverse.lookup a).getD (s.byte a) else s.byte a := by
  cases h
  exact Memory.read_writeCells s.mem allowed ans.writes a

theorem logWith_of_fits (rs rt : Reg) (topics : List Word) (s : State)
    (h : s.Fits (s.reg rs).toNat (s.reg rt).toNat) :
    logWith rs rt topics s =
      .next (s.pushLog ⟨topics, s.bytesAt (s.reg rs).toNat (s.reg rt).toNat⟩).advance := by
  rw [logWith, memRead_of_fits _ _ _ h, orRaise_ok, bytesAt_eq]

theorem logWith_of_not_fits (rs rt : Reg) (topics : List Word) (s : State)
    (h : ¬s.Fits (s.reg rs).toNat (s.reg rt).toNat) :
    logWith rs rt topics s =
      .next (s.faultedWith (.memoryFault (s.reg rs).toNat (s.reg rt).toNat)) := by
  rw [logWith, memRead_of_not_fits _ _ _ h, orRaise_error]

/-! ### Subroutines (47_eip615_subroutines.md) -/

theorem callSubroutine_of_room (target : CodeAddr) (s : State)
    (h : ∀ n, s.params.callstackMax = some n → s.callstack.length < n) :
    callSubroutine target s =
      .next (State.transfer { s with callstack := s.npc :: s.callstack } target) := by
  rw [callSubroutine, push_of_room _ _ h, orRaise_ok]

theorem callSubroutine_of_full (target : CodeAddr) (s : State) (n : Nat)
    (hn : s.params.callstackMax = some n) (h : n ≤ s.callstack.length) :
    callSubroutine target s = .next (s.faultedWith .callStackOverflow) := by
  rw [callSubroutine, push_of_full _ _ _ hn h, orRaise_error]

end Sys2Proof.Machine
end

