-- ==== Sys2Proof/Laws/Launch.lean ====
section
/-! SUPPORT. What launch leaves of the register file and of data memory, and the bounds of the two address
spaces (20_memory.md R40, R47). -/

namespace Sys2Proof.Machine

theorem LaunchRecord.reg_launch (r : LaunchRecord) (k : Reg) 
    (h : r.params.zeroReg = false ∨ k ≠ 0) :
    r.launch.reg k = (r.regs.lookup k.val).getD 0 := by
  have hk : (r.params.zeroReg && k == 0) = false := by
    rcases h with h | h <;> simp [h]
  show (if r.params.zeroReg && k == 0 then (0 : Word) else
    (Vector.ofFn fun i => (r.regs.lookup i.val).getD 0).get k) = _
  rw [hk, Vector.get_eq_getElem, Vector.getElem_ofFn]
  rfl

theorem LaunchRecord.byte_launch (r : LaunchRecord) (a : Nat) (h : a < r.params.memSize) :
    r.launch.byte a = (r.mem0.reverse.lookup a).getD 0 := by
  show Memory.read (Memory.writeCells [] _ _) a = _
  rw [Memory.read_writeCells, if_pos (decide_eq_true h)]
  rfl

/-- Under the invariant every listed address of data memory is an XLEN-bit integer (R40). -/
theorem State.Inv.address_lt {s : State} (h : s.Inv) {cell : Host.Cell} (m : cell ∈ s.mem) :
    cell.1 < 2 ^ 256 :=
  Nat.lt_of_lt_of_le (of_decide_eq_true (List.all_eq_true.mp h.inside cell m)) s.params.memSize_le

/-- What `unbrokenFrom` checks. -/
theorem unbrokenFrom_iff {α : Type} (base : CodeAddr) (prog : Table α) :
    unbrokenFrom base prog = true ↔
      base.toNat % 4 = 0 ∧ base.toNat + 4 * prog.length ≤ 2 ^ 32 ∧
        prog.map (·.1) = (List.range prog.length).map (base.toNat + 4 * ·) := by
  simp [unbrokenFrom, and_assoc]

/-- A key that no entry has is looked up in vain. -/
theorem Table.lookup_eq_none {α : Type} (prog : Table α) (a : Nat) (h : a ∉ prog.map (·.1)) :
    prog.lookup a = none := by
  rw [List.lookup_eq_none_iff]
  intro entry m
  simpa using fun e => h (List.mem_map.mpr ⟨entry, m, e.symm⟩)

/-- Where the keys are distinct each entry is the one its key finds. -/
theorem Table.lookup_getElem {α : Type} (prog : Table α) (k : Nat) (h : k < prog.length)
    (distinct : (prog.map (·.1)).Nodup) : prog.lookup prog[k].1 = some prog[k].2 := by
  induction prog generalizing k with
  | nil => simp at h
  | cons entry rest ih =>
    obtain ⟨key, value⟩ := entry
    cases k with
    | zero => simp
    | succ j =>
      have hj : j < rest.length := by simpa using h
      have away : rest[j].1 ≠ key := fun e =>
        (List.nodup_cons.mp distinct).1 (e ▸ List.mem_map.mpr ⟨_, List.getElem_mem hj, rfl⟩)
      simpa [List.lookup_cons, beq_eq_false_iff_ne.mpr away] using
        ih j hj (List.nodup_cons.mp distinct).2

/-- The entries of an unbroken program, by their number. -/
theorem unbrokenFrom_getElem {α : Type} {base : CodeAddr} {prog : Table α}
    (u : unbrokenFrom base prog = true) (k : Nat) (h : k < prog.length) :
    prog[k].1 = base.toNat + 4 * k := by
  have e := ((unbrokenFrom_iff base prog).mp u).2.2
  simpa [h] using congrArg (fun l : List Nat => l[k]?) e

/-- The addresses of an unbroken program are distinct. -/
theorem unbrokenFrom_nodup {α : Type} {base : CodeAddr} {prog : Table α}
    (u : unbrokenFrom base prog = true) : (prog.map (·.1)).Nodup := by
  rw [((unbrokenFrom_iff base prog).mp u).2.2]
  exact List.nodup_range.map fun a b e => by omega

end Sys2Proof.Machine
end

