-- ==== Sys2Proof/Laws/Patterns.lean ====
section
/-! SUPPORT. The patterns of Safety.lean are the packings of Decode.lean. -/

namespace Sys2Proof.Machine

theorem slotsPattern_eq_pack (op : BitVec 8) (s1 s2 s3 s4 s5 s6 : Slot) :
    slotsPattern op.toNat s1.toNat s2.toNat s3.toNat s4.toNat s5.toNat s6.toNat =
      pack op s1 s2 s3 s4 s5 s6 := by
  apply BitVec.eq_of_toNat_eq
  rw [slotsPattern, BitVec.toNat_ofNat, toNat_pack]
  omega

theorem imm24Pattern_eq_packImm24 (op : BitVec 8) (s1 s2 : Slot) (imm : BitVec 24) :
    imm24Pattern op.toNat s1.toNat s2.toNat imm = packImm24 op s1 s2 imm := by
  apply BitVec.eq_of_toNat_eq
  rw [imm24Pattern, BitVec.toNat_ofNat, toNat_packImm24]
  omega

theorem imm36Pattern_eq_packImm36 (op : BitVec 8) (imm : BitVec 36) :
    imm36Pattern op.toNat imm = packImm36 op imm := by
  apply BitVec.eq_of_toNat_eq
  rw [imm36Pattern, BitVec.toNat_ofNat, toNat_packImm36]
  omega

theorem imm18Pattern_eq_packImm18 (op : BitVec 8) (s1 s2 s3 : Slot) (imm : BitVec 18) :
    imm18Pattern op.toNat s1.toNat s2.toNat s3.toNat imm = packImm18 op s1 s2 s3 imm := by
  apply BitVec.eq_of_toNat_eq
  rw [imm18Pattern, BitVec.toNat_ofNat, toNat_packImm18]
  omega

end Sys2Proof.Machine
end

