-- ==== Sys2Proof/Laws/PerInstr.lean ====
section
/-! SUPPORT. A statement about every instruction as text: the opcode of its pattern is the one
spec/opcode_table.json gives its row (30_encoding.md R66). One lemma per constructor. -/

namespace Sys2Proof.Laws

/-- The opcode of each instruction, from the rows of spec/opcode_table.json. -/
def tableOpcode : Instr → BitVec 8
  | .stop => 0x00#8
  | .add _ _ _ => 0x01#8
  | .addi _ _ _ => 0x02#8
  | .addiu _ _ _ => 0x03#8
  | .addu _ _ _ => 0x04#8
  | .and _ _ _ => 0x05#8
  | .andi _ _ _ => 0x06#8
  | .beq _ _ _ => 0x07#8
  | .bgez _ _ => 0x08#8
  | .bgezal _ _ => 0x09#8
  | .bgtz _ _ => 0x0A#8
  | .blez _ _ => 0x0B#8
  | .bltz _ _ => 0x0C#8
  | .bltzal _ _ => 0x0D#8
  | .bne _ _ _ => 0x0E#8
  | .div _ _ => 0x0F#8
  | .divu _ _ => 0x10#8
  | .j _ => 0x11#8
  | .jal _ => 0x12#8
  | .jr _ => 0x13#8
  | .lb _ _ _ => 0x14#8
  | .lui _ _ => 0x15#8
  | .lw _ _ _ => 0x16#8
  | .mfhi _ => 0x17#8
  | .mflo _ => 0x18#8
  | .mult _ _ _ => 0x19#8
  | .multu _ _ _ => 0x1A#8
  | .noop => 0x1B#8
  | .or _ _ _ => 0x1C#8
  | .ori _ _ _ => 0x1D#8
  | .sb _ _ _ => 0x1E#8
  | .sll _ _ _ => 0x1F#8
  | .sllv _ _ _ => 0x20#8
  | .slt _ _ _ => 0x21#8
  | .slti _ _ _ => 0x22#8
  | .sltiu _ _ _ => 0x23#8
  | .sltu _ _ _ => 0x24#8
  | .sra _ _ _ => 0x25#8
  | .srl _ _ _ => 0x26#8
  | .srlv _ _ _ => 0x27#8
  | .srav _ _ _ => 0x28#8
  | .sub _ _ _ => 0x29#8
  | .subu _ _ _ => 0x2A#8
  | .sw _ _ _ => 0x2B#8
  | .syscall => 0x2C#8
  | .xor _ _ _ => 0x2D#8
  | .xori _ _ _ => 0x2E#8
  | .mod _ _ _ => 0x2F#8
  | .smod _ _ _ => 0x30#8
  | .addmod _ _ _ _ => 0x31#8
  | .mulmod _ _ _ _ => 0x32#8
  | .exp _ _ _ => 0x33#8
  | .modi _ _ _ => 0x34#8
  | .smodi _ _ _ => 0x35#8
  | .expi _ _ _ => 0x36#8
  | .gas _ => 0x80#8
  | .balance _ _ => 0x81#8
  | .address _ => 0x82#8
  | .origin _ => 0x83#8
  | .caller _ => 0x84#8
  | .callvalue _ => 0x85#8
  | .blockhash _ _ => 0x86#8
  | .coinbase _ => 0x87#8
  | .timestamp _ => 0x88#8
  | .number _ => 0x89#8
  | .difficulty _ => 0x8A#8
  | .gaslimit _ => 0x8B#8
  | .gasprice _ => 0x8C#8
  | .calldatasize _ => 0x8D#8
  | .calldataload _ _ => 0x8E#8
  | .calldatacopy _ _ _ => 0x8F#8
  | .codesize _ => 0x90#8
  | .codecopy _ _ _ => 0x91#8
  | .extcodesize _ _ => 0x92#8
  | .extcodehash _ _ => 0x93#8
  | .extcodecopy _ _ _ _ => 0x94#8
  | .returndatasize _ => 0x95#8
  | .returndatacopy _ _ _ => 0x96#8
  | .call _ _ => 0x97#8
  | .callcode _ _ => 0x98#8
  | .delegatecall _ _ => 0x99#8
  | .staticcall _ _ => 0x9A#8
  | .ret _ _ => 0x9B#8
  | .create2 _ _ _ _ _ => 0x9C#8
  | .revert _ _ => 0x9D#8
  | .keccak _ _ _ => 0x9E#8
  | .log0 _ _ => 0x9F#8
  | .log1 _ _ _ => 0xA0#8
  | .log2 _ _ _ _ => 0xA1#8
  | .log3 _ _ _ _ _ => 0xA2#8
  | .log4 _ _ _ _ _ _ => 0xA3#8
  | .jumpto _ => 0xAA#8
  | .jumpif _ => 0xAB#8
  | .jumpv _ _ _ => 0xAC#8
  | .jumpsub _ => 0xAD#8
  | .jumpsubv _ _ _ => 0xAE#8
  | .returnsub => 0xAF#8
  | .getlocal _ _ => 0xB0#8
  | .putlocal _ _ => 0xB1#8
  | .beginsub _ _ => 0xB2#8
  | .begindata => 0xB3#8
  | .simdadd _ _ _ _ => 0xB4#8
  | .simdmul _ _ _ _ => 0xB5#8
  | .simdsub _ _ _ _ => 0xB6#8
  | .simddiv _ _ _ _ => 0xB7#8
  | .simdsdiv _ _ _ _ => 0xB8#8
  | .simdmod _ _ _ _ => 0xB9#8
  | .simdsmod _ _ _ _ => 0xBA#8
  | .simdlt _ _ _ _ => 0xBB#8
  | .simdgt _ _ _ _ => 0xBC#8
  | .simdslt _ _ _ _ => 0xBD#8
  | .simdsgt _ _ _ _ => 0xBE#8
  | .simdeq _ _ _ _ => 0xBF#8
  | .simdiszero _ _ _ _ => 0xC0#8
  | .simdand _ _ _ _ => 0xC1#8
  | .simdor _ _ _ _ => 0xC2#8
  | .simdxor _ _ _ _ => 0xC3#8
  | .simdnot _ _ _ _ => 0xC4#8
  | .simdshl _ _ _ _ => 0xC5#8
  | .simdshr _ _ _ _ => 0xC6#8
  | .simdsar _ _ _ _ => 0xC7#8
  | .simdrol _ _ _ _ => 0xC8#8
  | .simdror _ _ _ _ => 0xC9#8
  | .simdindex _ _ _ _ => 0xCA#8
  | .simdshuffle _ _ _ _ => 0xCC#8
  | .checkproof _ _ _ _ _ => 0xCD#8
  | .checktemplate _ _ _ _ => 0xCE#8

/-- The pattern the encoder writes carries the opcode of the instruction's row. -/
def EncodeOpcode.Statement (i : Instr) : Prop := opcodeOf (encode i) = tableOpcode i

theorem EncodeOpcode.stop : EncodeOpcode.Statement .stop :=
  opcodeOf_pack ..

theorem EncodeOpcode.add (rd rs rt : Reg) : EncodeOpcode.Statement (.add rd rs rt) :=
  opcodeOf_pack ..

theorem EncodeOpcode.addi (rs rt : Reg) (imm : BitVec 24) :
    EncodeOpcode.Statement (.addi rs rt imm) :=
  opcodeOf_packImm24 ..

theorem EncodeOpcode.addiu (rs rt : Reg) (imm : BitVec 24) :
    EncodeOpcode.Statement (.addiu rs rt imm) :=
  opcodeOf_packImm24 ..

theorem EncodeOpcode.addu (rd rs rt : Reg) : EncodeOpcode.Statement (.addu rd rs rt) :=
  opcodeOf_pack ..

theorem EncodeOpcode.and (rd rs rt : Reg) : EncodeOpcode.Statement (.and rd rs rt) :=
  opcodeOf_pack ..

theorem EncodeOpcode.andi (rd rs : Reg) (imm : BitVec 24) :
    EncodeOpcode.Statement (.andi rd rs imm) :=
  opcodeOf_packImm24 ..

theorem EncodeOpcode.beq (rs rt : Reg) (off : BitVec 24) :
    EncodeOpcode.Statement (.beq rs rt off) :=
  opcodeOf_packImm24 ..

theorem EncodeOpcode.bgez (rs : Reg) (off : BitVec 24) : EncodeOpcode.Statement (.bgez rs off) :=
  opcodeOf_packImm24 ..

theorem EncodeOpcode.bgezal (rs : Reg) (off : BitVec 24) :
    EncodeOpcode.Statement (.bgezal rs off) :=
  opcodeOf_packImm24 ..

theorem EncodeOpcode.bgtz (rs : Reg) (off : BitVec 24) : EncodeOpcode.Statement (.bgtz rs off) :=
  opcodeOf_packImm24 ..

theorem EncodeOpcode.blez (rs : Reg) (off : BitVec 24) : EncodeOpcode.Statement (.blez rs off) :=
  opcodeOf_packImm24 ..

theorem EncodeOpcode.bltz (rs : Reg) (off : BitVec 24) : EncodeOpcode.Statement (.bltz rs off) :=
  opcodeOf_packImm24 ..

theorem EncodeOpcode.bltzal (rs : Reg) (off : BitVec 24) :
    EncodeOpcode.Statement (.bltzal rs off) :=
  opcodeOf_packImm24 ..

theorem EncodeOpcode.bne (rs rt : Reg) (off : BitVec 24) :
    EncodeOpcode.Statement (.bne rs rt off) :=
  opcodeOf_packImm24 ..

theorem EncodeOpcode.div (rs rt : Reg) : EncodeOpcode.Statement (.div rs rt) :=
  opcodeOf_pack ..

theorem EncodeOpcode.divu (rs rt : Reg) : EncodeOpcode.Statement (.divu rs rt) :=
  opcodeOf_pack ..

theorem EncodeOpcode.j (target : BitVec 36) : EncodeOpcode.Statement (.j target) :=
  opcodeOf_packImm36 ..

theorem EncodeOpcode.jal (target : BitVec 36) : EncodeOpcode.Statement (.jal target) :=
  opcodeOf_packImm36 ..

theorem EncodeOpcode.jr (rs : Reg) : EncodeOpcode.Statement (.jr rs) :=
  opcodeOf_pack ..

theorem EncodeOpcode.lb (rd rs : Reg) (off : BitVec 24) :
    EncodeOpcode.Statement (.lb rd rs off) :=
  opcodeOf_packImm24 ..

theorem EncodeOpcode.lui (rd : Reg) (imm : BitVec 24) : EncodeOpcode.Statement (.lui rd imm) :=
  opcodeOf_packImm24 ..

theorem EncodeOpcode.lw (rd rs : Reg) (off : BitVec 24) :
    EncodeOpcode.Statement (.lw rd rs off) :=
  opcodeOf_packImm24 ..

theorem EncodeOpcode.mfhi (rd : Reg) : EncodeOpcode.Statement (.mfhi rd) :=
  opcodeOf_pack ..

theorem EncodeOpcode.mflo (rd : Reg) : EncodeOpcode.Statement (.mflo rd) :=
  opcodeOf_pack ..

theorem EncodeOpcode.mult (rd rs rt : Reg) : EncodeOpcode.Statement (.mult rd rs rt) :=
  opcodeOf_pack ..

theorem EncodeOpcode.multu (rd rs rt : Reg) : EncodeOpcode.Statement (.multu rd rs rt) :=
  opcodeOf_pack ..

theorem EncodeOpcode.noop : EncodeOpcode.Statement .noop :=
  opcodeOf_pack ..

theorem EncodeOpcode.or (rd rs rt : Reg) : EncodeOpcode.Statement (.or rd rs rt) :=
  opcodeOf_pack ..

theorem EncodeOpcode.ori (rd rs : Reg) (imm : BitVec 24) :
    EncodeOpcode.Statement (.ori rd rs imm) :=
  opcodeOf_packImm24 ..

theorem EncodeOpcode.sb (rs rt : Reg) (off : BitVec 24) :
    EncodeOpcode.Statement (.sb rs rt off) :=
  opcodeOf_packImm24 ..

theorem EncodeOpcode.sll (rd rs : Reg) (imm : BitVec 24) :
    EncodeOpcode.Statement (.sll rd rs imm) :=
  opcodeOf_packImm24 ..

theorem EncodeOpcode.sllv (rd rs rt : Reg) : EncodeOpcode.Statement (.sllv rd rs rt) :=
  opcodeOf_pack ..

theorem EncodeOpcode.slt (rd rs rt : Reg) : EncodeOpcode.Statement (.slt rd rs rt) :=
  opcodeOf_pack ..

theorem EncodeOpcode.slti (rd rs : Reg) (imm : BitVec 24) :
    EncodeOpcode.Statement (.slti rd rs imm) :=
  opcodeOf_packImm24 ..

theorem EncodeOpcode.sltiu (rd rs : Reg) (imm : BitVec 24) :
    EncodeOpcode.Statement (.sltiu rd rs imm) :=
  opcodeOf_packImm24 ..

theorem EncodeOpcode.sltu (rd rs rt : Reg) : EncodeOpcode.Statement (.sltu rd rs rt) :=
  opcodeOf_pack ..

theorem EncodeOpcode.sra (rd rs : Reg) (imm : BitVec 24) :
    EncodeOpcode.Statement (.sra rd rs imm) :=
  opcodeOf_packImm24 ..

theorem EncodeOpcode.srl (rd rs : Reg) (imm : BitVec 24) :
    EncodeOpcode.Statement (.srl rd rs imm) :=
  opcodeOf_packImm24 ..

theorem EncodeOpcode.srlv (rd rs rt : Reg) : EncodeOpcode.Statement (.srlv rd rs rt) :=
  opcodeOf_pack ..

theorem EncodeOpcode.srav (rd rs rt : Reg) : EncodeOpcode.Statement (.srav rd rs rt) :=
  opcodeOf_pack ..

theorem EncodeOpcode.sub (rd rs rt : Reg) : EncodeOpcode.Statement (.sub rd rs rt) :=
  opcodeOf_pack ..

theorem EncodeOpcode.subu (rd rs rt : Reg) : EncodeOpcode.Statement (.subu rd rs rt) :=
  opcodeOf_pack ..

theorem EncodeOpcode.sw (rs rt : Reg) (off : BitVec 24) :
    EncodeOpcode.Statement (.sw rs rt off) :=
  opcodeOf_packImm24 ..

theorem EncodeOpcode.syscall : EncodeOpcode.Statement .syscall :=
  opcodeOf_pack ..

theorem EncodeOpcode.xor (rd rs rt : Reg) : EncodeOpcode.Statement (.xor rd rs rt) :=
  opcodeOf_pack ..

theorem EncodeOpcode.xori (rs rt : Reg) (imm : BitVec 24) :
    EncodeOpcode.Statement (.xori rs rt imm) :=
  opcodeOf_packImm24 ..

theorem EncodeOpcode.mod (rd rs rt : Reg) : EncodeOpcode.Statement (.mod rd rs rt) :=
  opcodeOf_pack ..

theorem EncodeOpcode.smod (rd rs rt : Reg) : EncodeOpcode.Statement (.smod rd rs rt) :=
  opcodeOf_pack ..

theorem EncodeOpcode.addmod (rd rs rt ru : Reg) : EncodeOpcode.Statement (.addmod rd rs rt ru) :=
  opcodeOf_pack ..

theorem EncodeOpcode.mulmod (rd rs rt ru : Reg) : EncodeOpcode.Statement (.mulmod rd rs rt ru) :=
  opcodeOf_pack ..

theorem EncodeOpcode.exp (rd rs rt : Reg) : EncodeOpcode.Statement (.exp rd rs rt) :=
  opcodeOf_pack ..

theorem EncodeOpcode.modi (rd rs : Reg) (imm : BitVec 24) :
    EncodeOpcode.Statement (.modi rd rs imm) :=
  opcodeOf_packImm24 ..

theorem EncodeOpcode.smodi (rd rs : Reg) (imm : BitVec 24) :
    EncodeOpcode.Statement (.smodi rd rs imm) :=
  opcodeOf_packImm24 ..

theorem EncodeOpcode.expi (rd rs : Reg) (imm : BitVec 24) :
    EncodeOpcode.Statement (.expi rd rs imm) :=
  opcodeOf_packImm24 ..

theorem EncodeOpcode.gas (rd : Reg) : EncodeOpcode.Statement (.gas rd) :=
  opcodeOf_pack ..

theorem EncodeOpcode.balance (rd rs : Reg) : EncodeOpcode.Statement (.balance rd rs) :=
  opcodeOf_pack ..

theorem EncodeOpcode.address (rd : Reg) : EncodeOpcode.Statement (.address rd) :=
  opcodeOf_pack ..

theorem EncodeOpcode.origin (rd : Reg) : EncodeOpcode.Statement (.origin rd) :=
  opcodeOf_pack ..

theorem EncodeOpcode.caller (rd : Reg) : EncodeOpcode.Statement (.caller rd) :=
  opcodeOf_pack ..

theorem EncodeOpcode.callvalue (rd : Reg) : EncodeOpcode.Statement (.callvalue rd) :=
  opcodeOf_pack ..

theorem EncodeOpcode.blockhash (rd rs : Reg) : EncodeOpcode.Statement (.blockhash rd rs) :=
  opcodeOf_pack ..

theorem EncodeOpcode.coinbase (rd : Reg) : EncodeOpcode.Statement (.coinbase rd) :=
  opcodeOf_pack ..

theorem EncodeOpcode.timestamp (rd : Reg) : EncodeOpcode.Statement (.timestamp rd) :=
  opcodeOf_pack ..

theorem EncodeOpcode.number (rd : Reg) : EncodeOpcode.Statement (.number rd) :=
  opcodeOf_pack ..

theorem EncodeOpcode.difficulty (rd : Reg) : EncodeOpcode.Statement (.difficulty rd) :=
  opcodeOf_pack ..

theorem EncodeOpcode.gaslimit (rd : Reg) : EncodeOpcode.Statement (.gaslimit rd) :=
  opcodeOf_pack ..

theorem EncodeOpcode.gasprice (rd : Reg) : EncodeOpcode.Statement (.gasprice rd) :=
  opcodeOf_pack ..

theorem EncodeOpcode.calldatasize (rd : Reg) : EncodeOpcode.Statement (.calldatasize rd) :=
  opcodeOf_pack ..

theorem EncodeOpcode.calldataload (rd rs : Reg) : EncodeOpcode.Statement (.calldataload rd rs) :=
  opcodeOf_pack ..

theorem EncodeOpcode.calldatacopy (rd rs rt : Reg) :
    EncodeOpcode.Statement (.calldatacopy rd rs rt) :=
  opcodeOf_pack ..

theorem EncodeOpcode.codesize (rd : Reg) : EncodeOpcode.Statement (.codesize rd) :=
  opcodeOf_pack ..

theorem EncodeOpcode.codecopy (rd rs rt : Reg) : EncodeOpcode.Statement (.codecopy rd rs rt) :=
  opcodeOf_pack ..

theorem EncodeOpcode.extcodesize (rd rs : Reg) : EncodeOpcode.Statement (.extcodesize rd rs) :=
  opcodeOf_pack ..

theorem EncodeOpcode.extcodehash (rd rs : Reg) : EncodeOpcode.Statement (.extcodehash rd rs) :=
  opcodeOf_pack ..

theorem EncodeOpcode.extcodecopy (rd rs rt ru : Reg) :
    EncodeOpcode.Statement (.extcodecopy rd rs rt ru) :=
  opcodeOf_pack ..

theorem EncodeOpcode.returndatasize (rd : Reg) : EncodeOpcode.Statement (.returndatasize rd) :=
  opcodeOf_pack ..

theorem EncodeOpcode.returndatacopy (rd rs rt : Reg) :
    EncodeOpcode.Statement (.returndatacopy rd rs rt) :=
  opcodeOf_pack ..

theorem EncodeOpcode.call (rd rs : Reg) : EncodeOpcode.Statement (.call rd rs) :=
  opcodeOf_pack ..

theorem EncodeOpcode.callcode (rd rs : Reg) : EncodeOpcode.Statement (.callcode rd rs) :=
  opcodeOf_pack ..

theorem EncodeOpcode.delegatecall (rd rs : Reg) : EncodeOpcode.Statement (.delegatecall rd rs) :=
  opcodeOf_pack ..

theorem EncodeOpcode.staticcall (rd rs : Reg) : EncodeOpcode.Statement (.staticcall rd rs) :=
  opcodeOf_pack ..

theorem EncodeOpcode.ret (rs rt : Reg) : EncodeOpcode.Statement (.ret rs rt) :=
  opcodeOf_pack ..

theorem EncodeOpcode.create2 (rd rs rt ru rv : Reg) :
    EncodeOpcode.Statement (.create2 rd rs rt ru rv) :=
  opcodeOf_pack ..

theorem EncodeOpcode.revert (rs rt : Reg) : EncodeOpcode.Statement (.revert rs rt) :=
  opcodeOf_pack ..

theorem EncodeOpcode.keccak (rd rs rt : Reg) : EncodeOpcode.Statement (.keccak rd rs rt) :=
  opcodeOf_pack ..

theorem EncodeOpcode.log0 (rs rt : Reg) : EncodeOpcode.Statement (.log0 rs rt) :=
  opcodeOf_pack ..

theorem EncodeOpcode.log1 (rs rt ru : Reg) : EncodeOpcode.Statement (.log1 rs rt ru) :=
  opcodeOf_pack ..

theorem EncodeOpcode.log2 (rs rt ru rv : Reg) : EncodeOpcode.Statement (.log2 rs rt ru rv) :=
  opcodeOf_pack ..

theorem EncodeOpcode.log3 (rs rt ru rv rw : Reg) :
    EncodeOpcode.Statement (.log3 rs rt ru rv rw) :=
  opcodeOf_pack ..

theorem EncodeOpcode.log4 (rs rt ru rv rw rx : Reg) :
    EncodeOpcode.Statement (.log4 rs rt ru rv rw rx) :=
  opcodeOf_pack ..

theorem EncodeOpcode.jumpto (imm : BitVec 24) : EncodeOpcode.Statement (.jumpto imm) :=
  opcodeOf_packImm24 ..

theorem EncodeOpcode.jumpif (imm : BitVec 24) : EncodeOpcode.Statement (.jumpif imm) :=
  opcodeOf_packImm24 ..

theorem EncodeOpcode.jumpv (rs : Reg) (n : Slot) (off : BitVec 24) :
    EncodeOpcode.Statement (.jumpv rs n off) :=
  opcodeOf_packImm24 ..

theorem EncodeOpcode.jumpsub (imm : BitVec 24) : EncodeOpcode.Statement (.jumpsub imm) :=
  opcodeOf_packImm24 ..

theorem EncodeOpcode.jumpsubv (rs : Reg) (n : Slot) (off : BitVec 24) :
    EncodeOpcode.Statement (.jumpsubv rs n off) :=
  opcodeOf_packImm24 ..

theorem EncodeOpcode.returnsub : EncodeOpcode.Statement .returnsub :=
  opcodeOf_pack ..

theorem EncodeOpcode.getlocal (rd : Reg) (off : BitVec 24) :
    EncodeOpcode.Statement (.getlocal rd off) :=
  opcodeOf_packImm24 ..

theorem EncodeOpcode.putlocal (rs : Reg) (off : BitVec 24) :
    EncodeOpcode.Statement (.putlocal rs off) :=
  opcodeOf_packImm24 ..

theorem EncodeOpcode.beginsub (args returns : Slot) :
    EncodeOpcode.Statement (.beginsub args returns) :=
  opcodeOf_pack ..

theorem EncodeOpcode.begindata : EncodeOpcode.Statement .begindata :=
  opcodeOf_pack ..

theorem EncodeOpcode.simdadd (ctx : Slot) (rd rs rt : Reg) :
    EncodeOpcode.Statement (.simdadd ctx rd rs rt) :=
  opcodeOf_pack ..

theorem EncodeOpcode.simdmul (ctx : Slot) (rd rs rt : Reg) :
    EncodeOpcode.Statement (.simdmul ctx rd rs rt) :=
  opcodeOf_pack ..

theorem EncodeOpcode.simdsub (ctx : Slot) (rd rs rt : Reg) :
    EncodeOpcode.Statement (.simdsub ctx rd rs rt) :=
  opcodeOf_pack ..

theorem EncodeOpcode.simddiv (ctx : Slot) (rd rs rt : Reg) :
    EncodeOpcode.Statement (.simddiv ctx rd rs rt) :=
  opcodeOf_pack ..

theorem EncodeOpcode.simdsdiv (ctx : Slot) (rd rs rt : Reg) :
    EncodeOpcode.Statement (.simdsdiv ctx rd rs rt) :=
  opcodeOf_pack ..

theorem EncodeOpcode.simdmod (ctx : Slot) (rd rs rt : Reg) :
    EncodeOpcode.Statement (.simdmod ctx rd rs rt) :=
  opcodeOf_pack ..

theorem EncodeOpcode.simdsmod (ctx : Slot) (rd rs rt : Reg) :
    EncodeOpcode.Statement (.simdsmod ctx rd rs rt) :=
  opcodeOf_pack ..

theorem EncodeOpcode.simdlt (ctx : Slot) (rd rs rt : Reg) :
    EncodeOpcode.Statement (.simdlt ctx rd rs rt) :=
  opcodeOf_pack ..

theorem EncodeOpcode.simdgt (ctx : Slot) (rd rs rt : Reg) :
    EncodeOpcode.Statement (.simdgt ctx rd rs rt) :=
  opcodeOf_pack ..

theorem EncodeOpcode.simdslt (ctx : Slot) (rd rs rt : Reg) :
    EncodeOpcode.Statement (.simdslt ctx rd rs rt) :=
  opcodeOf_pack ..

theorem EncodeOpcode.simdsgt (ctx : Slot) (rd rs rt : Reg) :
    EncodeOpcode.Statement (.simdsgt ctx rd rs rt) :=
  opcodeOf_pack ..

theorem EncodeOpcode.simdeq (ctx : Slot) (rd rs rt : Reg) :
    EncodeOpcode.Statement (.simdeq ctx rd rs rt) :=
  opcodeOf_pack ..

theorem EncodeOpcode.simdiszero (ctx : Slot) (rd rs rt : Reg) :
    EncodeOpcode.Statement (.simdiszero ctx rd rs rt) :=
  opcodeOf_pack ..

theorem EncodeOpcode.simdand (ctx : Slot) (rd rs rt : Reg) :
    EncodeOpcode.Statement (.simdand ctx rd rs rt) :=
  opcodeOf_pack ..

theorem EncodeOpcode.simdor (ctx : Slot) (rd rs rt : Reg) :
    EncodeOpcode.Statement (.simdor ctx rd rs rt) :=
  opcodeOf_pack ..

theorem EncodeOpcode.simdxor (ctx : Slot) (rd rs rt : Reg) :
    EncodeOpcode.Statement (.simdxor ctx rd rs rt) :=
  opcodeOf_pack ..

theorem EncodeOpcode.simdnot (ctx : Slot) (rd rs rt : Reg) :
    EncodeOpcode.Statement (.simdnot ctx rd rs rt) :=
  opcodeOf_pack ..

theorem EncodeOpcode.simdshl (ctx : Slot) (rd rs rt : Reg) :
    EncodeOpcode.Statement (.simdshl ctx rd rs rt) :=
  opcodeOf_pack ..

theorem EncodeOpcode.simdshr (ctx : Slot) (rd rs rt : Reg) :
    EncodeOpcode.Statement (.simdshr ctx rd rs rt) :=
  opcodeOf_pack ..

theorem EncodeOpcode.simdsar (ctx : Slot) (rd rs rt : Reg) :
    EncodeOpcode.Statement (.simdsar ctx rd rs rt) :=
  opcodeOf_pack ..

theorem EncodeOpcode.simdrol (ctx : Slot) (rd rs rt : Reg) :
    EncodeOpcode.Statement (.simdrol ctx rd rs rt) :=
  opcodeOf_pack ..

theorem EncodeOpcode.simdror (ctx : Slot) (rd rs rt : Reg) :
    EncodeOpcode.Statement (.simdror ctx rd rs rt) :=
  opcodeOf_pack ..

theorem EncodeOpcode.simdindex (ctx : Slot) (rd rs : Reg) (idx : Slot) :
    EncodeOpcode.Statement (.simdindex ctx rd rs idx) :=
  opcodeOf_pack ..

theorem EncodeOpcode.simdshuffle (ctx : Slot) (rd rs rt : Reg) :
    EncodeOpcode.Statement (.simdshuffle ctx rd rs rt) :=
  opcodeOf_pack ..

theorem EncodeOpcode.checkproof (rd rs rt : Reg) (n index : BitVec 3) :
    EncodeOpcode.Statement (.checkproof rd rs rt n index) :=
  opcodeOf_pack ..

theorem EncodeOpcode.checktemplate (rd rs rt : Reg) (imm : BitVec 18) :
    EncodeOpcode.Statement (.checktemplate rd rs rt imm) :=
  opcodeOf_packImm18 ..

end Sys2Proof.Laws
end

