-- ==== Sys2Proof/Laws/Simd.lean ====
section
/-! SUPPORT. What the shared parts of the SIMD instructions (48_eip616_simd.md) can do. -/

namespace Sys2Proof.Machine

/-- A lane of memory fits the lane width. -/
theorem lane_lt (s : State) (ctx : Slot) (sh : SimdShape) (a i : Nat) (h : s.HasShape ctx sh) :
    s.lane sh a i < 2 ^ sh.laneBits := by
  have := numberAt_lt s (a + i * (sh.laneBits / 8)) (sh.laneBits / 8)
  rwa [pow_laneBits sh h.2.1] at this

/-- A vector has at least one byte. -/
theorem vectorBytes_pos (s : State) (ctx : Slot) (sh : SimdShape) (h : s.HasShape ctx sh) :
    0 < vectorBytes sh := by
  obtain ⟨_, _, hlo, _, hn⟩ := h
  exact Nat.mul_pos hn (by rw [laneBytes]; omega)

/-- The lanes when no lane faults. -/
theorem zipLanes_ok {w : Nat} (f : BitVec w → BitVec w → Except Cause (BitVec w))
    (g : BitVec w → BitVec w → BitVec w) (as bs : List (BitVec w))
    (h : ∀ i (h1 : i < as.length) (h2 : i < bs.length), f as[i] bs[i] = .ok (g as[i] bs[i])) :
    zipLanes f as bs = .ok (List.zipWith g as bs) := by
  induction as generalizing bs with
  | nil => cases bs <;> rfl
  | cons a as ih =>
    cases bs with
    | nil => rfl
    | cons b bs =>
      have h0 : f a b = .ok (g a b) := h 0 (Nat.zero_lt_succ _) (Nat.zero_lt_succ _)
      rw [zipLanes, h0,
        ih bs fun i h1 h2 => h (i + 1) (Nat.succ_lt_succ h1) (Nat.succ_lt_succ h2)]
      rfl

/-- The fault when a lane faults, for a lane function with one fault. -/
theorem zipLanes_error {w : Nat} (c : Cause) (f : BitVec w → BitVec w → Except Cause (BitVec w))
    (as bs : List (BitVec w)) (hc : ∀ a b c', f a b = .error c' → c' = c)
    (h : ∃ i, ∃ (h1 : i < as.length) (h2 : i < bs.length), f as[i] bs[i] = .error c) :
    zipLanes f as bs = .error c := by
  induction as generalizing bs with
  | nil => obtain ⟨i, h1, _⟩ := h; exact absurd h1 (Nat.not_lt_zero i)
  | cons a as ih =>
    cases bs with
    | nil => obtain ⟨i, _, h1, _⟩ := h; exact absurd h1 (Nat.not_lt_zero i)
    | cons b bs =>
      rw [zipLanes]
      cases e : f a b with
      | error c' => rw [hc _ _ _ e]
      | ok r =>
        obtain ⟨i, h1, h2, h3⟩ := h
        cases i with
        | zero => exact absurd (e.symm.trans h3) (by simp)
        | succ i =>
          rw [ih bs ⟨i, Nat.lt_of_succ_lt_succ h1, Nat.lt_of_succ_lt_succ h2, h3⟩]

/-- The lanes of a shuffle when every mask lane is a lane number. -/
theorem permute_ok {w : Nat} (a m : List (BitVec w))
    (h : ∀ i (hi : i < m.length), m[i].toNat < a.length) :
    ∃ r, permute a m = .ok r ∧ ∃ hl : r.length = m.length,
      ∀ i (hi : i < m.length), r[i]'(by omega) = a[m[i].toNat]'(h i hi) := by
  induction m with
  | nil => exact ⟨[], rfl, rfl, fun i hi => absurd hi (Nat.not_lt_zero i)⟩
  | cons x xs ih =>
    obtain ⟨r, e, hl, hr⟩ := ih fun i hi => h (i + 1) (Nat.succ_lt_succ hi)
    have h0 : x.toNat < a.length := h 0 (Nat.zero_lt_succ _)
    refine ⟨a[x.toNat] :: r, ?_, by rw [List.length_cons, List.length_cons, hl], ?_⟩
    · rw [permute, List.getElem?_eq_getElem h0, e]
    · intro i hi
      cases i with
      | zero => rfl
      | succ i => exact hr i (Nat.lt_of_succ_lt_succ hi)

/-- The fault of a shuffle when a mask lane is not a lane number. -/
theorem permute_error {w : Nat} (a m : List (BitVec w))
    (h : ∃ i, ∃ hi : i < m.length, a.length ≤ m[i].toNat) : permute a m = .error .simdFault := by
  induction m with
  | nil => obtain ⟨i, hi, _⟩ := h; exact absurd hi (Nat.not_lt_zero i)
  | cons x xs ih =>
    rw [permute]
    cases e : a[x.toNat]? with
    | none => rfl
    | some v =>
      obtain ⟨i, hi, hh⟩ := h
      cases i with
      | zero => exact absurd (e.symm.trans (List.getElem?_eq_none hh)) (by simp)
      | succ i => rw [ih ⟨i, Nat.lt_of_succ_lt_succ hi, hh⟩]

/-- A vector store that does not fit. -/
theorem storeLanes_of_not_fits (rd : Reg) (s : State) (sh : SimdShape) (r : List (BitVec sh.laneBits))
    (hr : r.length = sh.laneCount) (h : ¬s.Fits (s.reg rd).toNat (vectorBytes sh)) :
    storeLanes (laneBytes sh) rd r s =
      .next (s.faultedWith (.memoryFault (s.reg rd).toNat (vectorBytes sh))) := by
  have hl : (bytesOfLanes (laneBytes sh) r).length = vectorBytes sh := by
    rw [length_bytesOfLanes, hr, vectorBytes]
  rw [storeLanes, store_of_not_fits _ _ _ (by rwa [hl]), hl]

/-- A vector store that fits. -/
theorem storeLanes_of_fits (rd : Reg) (s : State) (sh : SimdShape) (r : List (BitVec sh.laneBits))
    (hr : r.length = sh.laneCount) (h : s.Fits (s.reg rd).toNat (vectorBytes sh)) :
    storeLanes (laneBytes sh) rd r s =
      .next (State.advance { s with
        mem := Memory.writeBytes s.mem (s.reg rd).toNat (bytesOfLanes (laneBytes sh) r) }) := by
  have hl : (bytesOfLanes (laneBytes sh) r).length = vectorBytes sh := by
    rw [length_bytesOfLanes, hr, vectorBytes]
  rw [storeLanes, store_of_fits _ _ _ (by rwa [hl])]

/-- The rotated lane as a number. -/
theorem toNat_rotateLeft {w : Nat} (hw : 0 < w) (a : BitVec w) (n : Nat) :
    (rotateLeft a n).toNat =
      a.toNat * 2 ^ (n % w) % 2 ^ w + a.toNat / 2 ^ (w - n % w) := by
  have ha := a.isLt
  have hk : n % w < w := Nat.mod_lt _ hw
  simp only [rotateLeft]
  generalize n % w = k at *
  split
  · next h => subst h; simp [Nat.mod_eq_of_lt ha, Nat.div_eq_of_lt ha]
  · have e : 2 ^ w = 2 ^ (w - k) * 2 ^ k := by rw [← Nat.pow_add]; congr 1; omega
    have h1 : a.toNat / 2 ^ (w - k) < 2 ^ k := by
      rw [Nat.div_lt_iff_lt_mul (by positivity), Nat.mul_comm, ← e]; exact ha
    have h2 : a.toNat % 2 ^ (w - k) < 2 ^ (w - k) := Nat.mod_lt _ (by positivity)
    have h3 : a.toNat * 2 ^ k % 2 ^ w = a.toNat % 2 ^ (w - k) * 2 ^ k := by
      rw [e, Nat.mul_mod_mul_right]
    rw [BitVec.toNat_ofNat, Nat.mod_eq_of_lt]
    rw [h3, e]
    calc a.toNat % 2 ^ (w - k) * 2 ^ k + a.toNat / 2 ^ (w - k)
        < a.toNat % 2 ^ (w - k) * 2 ^ k + 2 ^ k := by omega
      _ = (a.toNat % 2 ^ (w - k) + 1) * 2 ^ k := by ring
      _ ≤ 2 ^ (w - k) * 2 ^ k := Nat.mul_le_mul_right _ h2

theorem toNat_rotateRight {w : Nat} (hw : 0 < w) (a : BitVec w) (n : Nat) :
    (rotateRight a n).toNat =
      a.toNat / 2 ^ (n % w) + a.toNat * 2 ^ (w - n % w) % 2 ^ w := by
  have ha := a.isLt
  have hk : n % w < w := Nat.mod_lt _ hw
  simp only [rotateRight]
  generalize n % w = k at *
  split
  · next h => subst h; simp
  · have e : 2 ^ w = 2 ^ k * 2 ^ (w - k) := by rw [← Nat.pow_add]; congr 1; omega
    have h1 : a.toNat / 2 ^ k < 2 ^ (w - k) := by
      rw [Nat.div_lt_iff_lt_mul (by positivity), Nat.mul_comm, ← e]; exact ha
    have h2 : a.toNat % 2 ^ k < 2 ^ k := Nat.mod_lt _ (by positivity)
    have h3 : a.toNat * 2 ^ (w - k) % 2 ^ w = a.toNat % 2 ^ k * 2 ^ (w - k) := by
      rw [e, Nat.mul_mod_mul_right]
    rw [BitVec.toNat_ofNat, Nat.mod_eq_of_lt]
    rw [h3, e]
    calc a.toNat / 2 ^ k + a.toNat % 2 ^ k * 2 ^ (w - k)
        < 2 ^ (w - k) + a.toNat % 2 ^ k * 2 ^ (w - k) := by omega
      _ = (a.toNat % 2 ^ k + 1) * 2 ^ (w - k) := by ring
      _ ≤ 2 ^ k * 2 ^ (w - k) := Nat.mul_le_mul_right _ h2

end Sys2Proof.Machine
end

