-- ==== Sys2Proof/Machine/Assembly.lean ====
section
/-! DEFINITION. The assembler text of an instruction (30_encoding.md R71, R72): the mnemonic in lower case, the
operands in the order of the instruction's line in R66. The number form is the model's choice
(notes/assumptions/25.md). -/

namespace Sys2Proof.Machine

/-- A register operand: `$` and the number. -/
def regText (r : Reg) : String := "$" ++ toString r.val

/-- An immediate that its rule reads as unsigned, in decimal. -/
def natText {w : Nat} (v : BitVec w) : String := toString v.toNat

/-- An immediate that its rule sign-extends (R65), in decimal. -/
def intText (v : BitVec 24) : String := toString v.toInt

/-- A memory operand: `offset($rs)`. -/
def memText (off : BitVec 24) (rs : Reg) : String := intText off ++ "(" ++ regText rs ++ ")"

/-- The mnemonic and its operands, separated by a comma and a space. -/
def line (mnemonic : String) (operands : List String) : String :=
  match operands with
  | [] => mnemonic
  | _ => mnemonic ++ " " ++ ", ".intercalate operands

/-- The assembler text. The context of a SIMD instruction is not in it: "the source does not say how the
assembler is told the context" (R72). -/
def asmText : Instr → String
  | .stop => line "stop" []
  | .add rd rs rt => line "add" [regText rd, regText rs, regText rt]
  | .addi rs rt imm => line "addi" [regText rt, regText rs, intText imm]
  | .addiu rs rt imm => line "addiu" [regText rt, regText rs, intText imm]
  | .addu rd rs rt => line "addu" [regText rd, regText rs, regText rt]
  | .and rd rs rt => line "and" [regText rd, regText rs, regText rt]
  | .andi rd rs imm => line "andi" [regText rd, regText rs, natText imm]
  | .beq rs rt off => line "beq" [regText rs, regText rt, intText off]
  | .bgez rs off => line "bgez" [regText rs, intText off]
  | .bgezal rs off => line "bgezal" [regText rs, intText off]
  | .bgtz rs off => line "bgtz" [regText rs, intText off]
  | .blez rs off => line "blez" [regText rs, intText off]
  | .bltz rs off => line "bltz" [regText rs, intText off]
  | .bltzal rs off => line "bltzal" [regText rs, intText off]
  | .bne rs rt off => line "bne" [regText rs, regText rt, intText off]
  | .div rs rt => line "div" [regText rs, regText rt]
  | .divu rs rt => line "divu" [regText rs, regText rt]
  | .j target => line "j" [natText target]
  | .jal target => line "jal" [natText target]
  | .jr rs => line "jr" [regText rs]
  | .lb rd rs off => line "lb" [regText rd, memText off rs]
  | .lui rd imm => line "lui" [regText rd, natText imm]
  | .lw rd rs off => line "lw" [regText rd, memText off rs]
  | .mfhi rd => line "mfhi" [regText rd]
  | .mflo rd => line "mflo" [regText rd]
  | .mult rd rs rt => line "mult" [regText rd, regText rs, regText rt]
  | .multu rd rs rt => line "multu" [regText rd, regText rs, regText rt]
  | .noop => line "noop" []
  | .or rd rs rt => line "or" [regText rd, regText rs, regText rt]
  | .ori rd rs imm => line "ori" [regText rd, regText rs, natText imm]
  | .sb rs rt off => line "sb" [regText rt, memText off rs]
  | .sll rd rs imm => line "sll" [regText rd, regText rs, natText imm]
  | .sllv rd rs rt => line "sllv" [regText rd, regText rs, regText rt]
  | .slt rd rs rt => line "slt" [regText rd, regText rs, regText rt]
  | .slti rd rs imm => line "slti" [regText rd, regText rs, intText imm]
  | .sltiu rd rs imm => line "sltiu" [regText rd, regText rs, natText imm]
  | .sltu rd rs rt => line "sltu" [regText rd, regText rs, regText rt]
  | .sra rd rs imm => line "sra" [regText rd, regText rs, natText imm]
  | .srl rd rs imm => line "srl" [regText rd, regText rs, natText imm]
  | .srlv rd rs rt => line "srlv" [regText rd, regText rs, regText rt]
  | .srav rd rs rt => line "srav" [regText rd, regText rs, regText rt]
  | .sub rd rs rt => line "sub" [regText rd, regText rs, regText rt]
  | .subu rd rs rt => line "subu" [regText rd, regText rs, regText rt]
  | .sw rs rt off => line "sw" [regText rt, memText off rs]
  | .syscall => line "syscall" []
  | .xor rd rs rt => line "xor" [regText rd, regText rs, regText rt]
  | .xori rs rt imm => line "xori" [regText rt, regText rs, natText imm]
  | .mod rd rs rt => line "mod" [regText rd, regText rs, regText rt]
  | .smod rd rs rt => line "smod" [regText rd, regText rs, regText rt]
  | .addmod rd rs rt ru => line "addmod" [regText rd, regText rs, regText rt, regText ru]
  | .mulmod rd rs rt ru => line "mulmod" [regText rd, regText rs, regText rt, regText ru]
  | .exp rd rs rt => line "exp" [regText rd, regText rs, regText rt]
  | .modi rd rs imm => line "modi" [regText rd, regText rs, natText imm]
  | .smodi rd rs imm => line "smodi" [regText rd, regText rs, intText imm]
  | .expi rd rs imm => line "expi" [regText rd, regText rs, natText imm]
  | .gas rd => line "gas" [regText rd]
  | .balance rd rs => line "balance" [regText rd, regText rs]
  | .address rd => line "address" [regText rd]
  | .origin rd => line "origin" [regText rd]
  | .caller rd => line "caller" [regText rd]
  | .callvalue rd => line "callvalue" [regText rd]
  | .blockhash rd rs => line "blockhash" [regText rd, regText rs]
  | .coinbase rd => line "coinbase" [regText rd]
  | .timestamp rd => line "timestamp" [regText rd]
  | .number rd => line "number" [regText rd]
  | .difficulty rd => line "difficulty" [regText rd]
  | .gaslimit rd => line "gaslimit" [regText rd]
  | .gasprice rd => line "gasprice" [regText rd]
  | .calldatasize rd => line "calldatasize" [regText rd]
  | .calldataload rd rs => line "calldataload" [regText rd, regText rs]
  | .calldatacopy rd rs rt => line "calldatacopy" [regText rd, regText rs, regText rt]
  | .codesize rd => line "codesize" [regText rd]
  | .codecopy rd rs rt => line "codecopy" [regText rd, regText rs, regText rt]
  | .extcodesize rd rs => line "extcodesize" [regText rd, regText rs]
  | .extcodehash rd rs => line "extcodehash" [regText rd, regText rs]
  | .extcodecopy rd rs rt ru => line "extcodecopy" [regText rd, regText ru, regText rs, regText rt]
  | .returndatasize rd => line "returndatasize" [regText rd]
  | .returndatacopy rd rs rt => line "returndatacopy" [regText rd, regText rs, regText rt]
  | .call rd rs => line "call" [regText rd, regText rs]
  | .callcode rd rs => line "callcode" [regText rd, regText rs]
  | .delegatecall rd rs => line "delegatecall" [regText rd, regText rs]
  | .staticcall rd rs => line "staticcall" [regText rd, regText rs]
  | .ret rs rt => line "return" [regText rs, regText rt]
  | .create2 rd rs rt ru rv => line "create2" [regText rd, regText rs, regText rt, regText ru, regText rv]
  | .revert rs rt => line "revert" [regText rs, regText rt]
  | .keccak rd rs rt => line "keccak" [regText rd, regText rs, regText rt]
  | .log0 rs rt => line "log0" [regText rs, regText rt]
  | .log1 rs rt ru => line "log1" [regText rs, regText rt, regText ru]
  | .log2 rs rt ru rv => line "log2" [regText rs, regText rt, regText ru, regText rv]
  | .log3 rs rt ru rv rw => line "log3" [regText rs, regText rt, regText ru, regText rv, regText rw]
  | .log4 rs rt ru rv rw rx => line "log4" [regText rs, regText rt, regText ru, regText rv, regText rw, regText rx]
  | .jumpto imm => line "jumpto" [natText imm]
  | .jumpif imm => line "jumpif" [natText imm]
  | .jumpv rs n off => line "jumpv" [natText n, natText off, regText rs]
  | .jumpsub imm => line "jumpsub" [natText imm]
  | .jumpsubv rs n off => line "jumpsubv" [natText n, natText off, regText rs]
  | .returnsub => line "returnsub" []
  | .getlocal rd off => line "getlocal" [regText rd, natText off]
  | .putlocal rs off => line "putlocal" [regText rs, natText off]
  | .beginsub args returns => line "beginsub" [natText args, natText returns]
  | .begindata => line "begindata" []
  | .simdadd _ rd rs rt => line "simdadd" [regText rd, regText rs, regText rt]
  | .simdmul _ rd rs rt => line "simdmul" [regText rd, regText rs, regText rt]
  | .simdsub _ rd rs rt => line "simdsub" [regText rd, regText rs, regText rt]
  | .simddiv _ rd rs rt => line "simddiv" [regText rd, regText rs, regText rt]
  | .simdsdiv _ rd rs rt => line "simdsdiv" [regText rd, regText rs, regText rt]
  | .simdmod _ rd rs rt => line "simdmod" [regText rd, regText rs, regText rt]
  | .simdsmod _ rd rs rt => line "simdsmod" [regText rd, regText rs, regText rt]
  | .simdlt _ rd rs rt => line "simdlt" [regText rd, regText rs, regText rt]
  | .simdgt _ rd rs rt => line "simdgt" [regText rd, regText rs, regText rt]
  | .simdslt _ rd rs rt => line "simdslt" [regText rd, regText rs, regText rt]
  | .simdsgt _ rd rs rt => line "simdsgt" [regText rd, regText rs, regText rt]
  | .simdeq _ rd rs rt => line "simdeq" [regText rd, regText rs, regText rt]
  | .simdiszero _ rd rs rt => line "simdiszero" [regText rd, regText rs, regText rt]
  | .simdand _ rd rs rt => line "simdand" [regText rd, regText rs, regText rt]
  | .simdor _ rd rs rt => line "simdor" [regText rd, regText rs, regText rt]
  | .simdxor _ rd rs rt => line "simdxor" [regText rd, regText rs, regText rt]
  | .simdnot _ rd rs rt => line "simdnot" [regText rd, regText rs, regText rt]
  | .simdshl _ rd rs rt => line "simdshl" [regText rd, regText rs, regText rt]
  | .simdshr _ rd rs rt => line "simdshr" [regText rd, regText rs, regText rt]
  | .simdsar _ rd rs rt => line "simdsar" [regText rd, regText rs, regText rt]
  | .simdrol _ rd rs rt => line "simdrol" [regText rd, regText rs, regText rt]
  | .simdror _ rd rs rt => line "simdror" [regText rd, regText rs, regText rt]
  | .simdindex _ rd rs idx => line "simdindex" [regText rd, regText rs, natText idx]
  | .simdshuffle _ rd rs rt => line "simdshuffle" [regText rd, regText rs, regText rt]
  | .checkproof rd rs rt n index => line "checkproof" [regText rd, natText n, regText rs, natText index, regText rt]
  | .checktemplate rd rs rt imm => line "checktemplate" [regText rd, regText rs, natText imm, regText rt]

end Sys2Proof.Machine
end

