-- ==== Sys2Proof/Tests/Slice0.lean ====
section
/-! SUPPORT. Tests: the ill-formed inputs each check refuses, the decoding of patterns the spec writes out, one step
of each vector of 95_test_vectors.md, and a witness for the hypotheses of each statement. Expected results are the
spec's own, from the rule or the vector a test names. -/

namespace Sys2Proof.Tests

open Sys2Proof Sys2Proof.Machine

-- One theorem at a time: each thread reserves a stack, and all of them at once exceed the memory limit of a check.
set_option Elab.async false

/-! ### Helpers -/

/-- The pattern of 2^256 - 1. -/
def ones : Nat := 2 ^ 256 - 1

/-- `MAX` of the vectors. -/
def maxWord : Nat := 2 ^ 255 - 1

/-- `MIN` of the vectors, as a pattern. -/
def minWord : Nat := 2 ^ 255

/-- The pattern of `-n`. -/
def neg (n : Nat) : Nat := 2 ^ 256 - n

/-- Give registers their values. -/
def put (values : List (Nat × Nat)) (s : State) : State :=
  values.foldl (fun t p => t.setReg (Fin.ofNat 64 p.1) (BitVec.ofNat 256 p.2)) s

/-- Put big-endian numbers in memory: an address, a count of bytes and a value each. -/
def poke (values : List (Nat × Nat × Nat)) (s : State) : State :=
  values.foldl (fun t p => { t with mem := Memory.writeBytes t.mem p.1 (bytesBE p.2.2 p.2.1) }) s

/-- Give `hi` and `lo` their values. -/
def hiLo (hi lo : Nat) (s : State) : State := s.setHiLo (BitVec.ofNat 256 hi) (BitVec.ofNat 256 lo)

/-- Give the two counters their values. -/
def go (pc npc : Nat) (s : State) : State :=
  { s with pc := BitVec.ofNat 32 pc, npc := BitVec.ofNat 32 npc }

/-- The counters after a step from 0x100 that does not transfer control. -/
def next : State → State := go 0x104 0x108

/-- The counters after a step from 0x100 that transfers control. -/
def jumpTo (npc : Nat) : State → State := go 0x104 npc

/-- The environment of section 2.7 of 95_test_vectors.md, with a value of its own in each other field. -/
def testEnv : Env :=
  { gas := 100000, gaslimit := 2, gasprice := 3, address := 0xAB, origin := 5, caller := 6, value := 7,
    coinbase := 8, timestamp := 9, number := 10, difficulty := 11, balance := [(0xAB, 500)],
    blockhash := [(256, 0xB10C0100)], code := [(0xAB, bytesBE 0xC0C1C2C3C4C5C6C7C8C9CA 11)],
    codehash := [(0xAB, 12)], calldata := (List.range 36).map fun k => BitVec.ofNat 8 (0x10 + k) }

/-- The start of the vectors: 0x100, the jump vector of section 2.9, and the values a vector names. -/
def start (regs : List (Nat × Nat)) (mem : List (Nat × Nat × Nat) := []) : State :=
  poke mem (put regs
    { State.reset with
      pc := 0x100, npc := 0x104, env := testEnv,
      dataVec := [(0, 0x200), (1, 0x210), (2, 0x220), (3, 0x230), (4, 0x240)] })

/-- Two states are equal, field by field. -/
def same (a b : State) : Bool :=
  a.regs.toList.map BitVec.toNat == b.regs.toList.map BitVec.toNat &&
  decide (a.hi = b.hi ∧ a.lo = b.lo ∧ a.pc = b.pc ∧ a.npc = b.npc ∧ a.compare = b.compare ∧
    a.marker = b.marker ∧ a.runState = b.runState ∧ a.callstack = b.callstack ∧ a.subs = b.subs ∧
    a.mem = b.mem ∧ a.log = b.log ∧ a.returndata = b.returndata ∧ a.env = b.env ∧
    a.program = b.program ∧ a.dataVec = b.dataVec ∧ a.params = b.params ∧ a.freeCount = b.freeCount)

/-- One step of the pattern answers the state with exactly these changes. -/
def becomes (s : State) (w : Nat) (change : State → State) : Bool :=
  match step (s.withFetchWord 44 w) with
  | .next t => same t (change (s.withFetchWord 44 w))
  | .fault _ => false
  | .refused _ => false

/-- Every row holds. -/
def allHold (rows : List Bool) : Bool := rows.all id

/-- Every pattern decodes to its instruction, and is the instruction's pattern. -/
def allRead (rows : List (Nat × Instr)) : Bool :=
  rows.all fun p =>
    decide (decodeTableWord 44 p.1 = some p.2) && decide (encode p.2 = BitVec.ofNat 44 p.1)

/-! ### Ill-formed inputs (WellFormed.lean, Machine/Launch.lean) -/

theorem test_shape_refuses_width_12 : SimdShape.valid ⟨12, 4⟩ = false := by decide
theorem test_shape_refuses_width_0 : SimdShape.valid ⟨0, 4⟩ = false := by decide
theorem test_shape_refuses_width_264 : SimdShape.valid ⟨264, 4⟩ = false := by decide
theorem test_shape_refuses_no_lane : SimdShape.valid ⟨64, 0⟩ = false := by decide
theorem test_shape_accepts_64_4 : SimdShape.valid ⟨64, 4⟩ = true := by decide

/-- A context whose entry has no valid shape is undefined (R250 a). -/
theorem test_simd_invalid_shape_faults :
    becomes { start [] with params := { resetParams with simdCtx := [(1, ⟨12, 4⟩)] } } 0xB4043042000
      (·.faultedWith .simdFault) = true := by decide +kernel

theorem test_listing_refuses_jumpsub_target :
    Listing.wellFormed [(0, .jumpsub 4), (4, .noop)] [] = false := by decide
theorem test_listing_refuses_jumpsubv_entry :
    Listing.wellFormed [(0, .jumpsubv 1 2 0), (4, .noop)] [(0, 4)] = false := by decide
theorem test_listing_refuses_jumpv_entry :
    Listing.wellFormed [(0, .jumpv 1 2 0)] [(1, 8)] = false := by decide
theorem test_listing_refuses_jumpto_target : Listing.wellFormed [(0, .jumpto 8)] [] = false := by decide
theorem test_listing_refuses_jumpif_target : Listing.wellFormed [(0, .jumpif 8)] [] = false := by decide
theorem test_listing_accepts :
    Listing.wellFormed [(0, .jumpsubv 1 1 0), (4, .jumpsub 8), (8, .beginsub 0 0)] [(0, 8), (1, 4)]
      = true := by decide
theorem test_addresses_refuse_6 : addressesAligned [(6, Instr.noop)] = false := by decide
theorem test_addresses_refuse_past_32_bits :
    addressesAligned [(2 ^ 32, Instr.noop)] = false := by decide

theorem test_launch_refuses_no_entry : LaunchRecord.entryDefined {} = false := by decide +kernel
theorem test_launch_refuses_misaligned_program :
    LaunchRecord.programAligned { program := [(2, 0)] } = false := by decide
theorem test_launch_refuses_hole :
    LaunchRecord.programUnbroken { program := [(0, 0), (8, 0)] } = false := by decide
theorem test_launch_refuses_other_base :
    LaunchRecord.programUnbroken { base := 8, program := [(4, 0), (8, 0)] } = false := by decide
theorem test_launch_refuses_misaligned_base :
    LaunchRecord.programUnbroken { base := 2, program := [(2, 0), (6, 0)] } = false := by decide
theorem test_launch_refuses_past_32_bits :
    LaunchRecord.programUnbroken { base := 0xFFFFFFFC, program := [(0xFFFFFFFC, 0), (2 ^ 32, 0)] } = false := by
  decide
theorem test_launch_accepts_unbroken :
    LaunchRecord.programUnbroken { base := 0xFFFFFFF8, program := [(0xFFFFFFF8, 0), (0xFFFFFFFC, 0)] } = true := by
  decide
theorem test_launch_refuses_getlocal_without_marker :
    LaunchRecord.suppliesProgram { program := [(0, 0xB0080000000)] } = false := by decide +kernel
theorem test_launch_refuses_getlocal_outside_memory :
    LaunchRecord.suppliesProgram { program := [(0, 0xB0080000001)], marker := some 0xFFE0 } = false := by
  decide +kernel
theorem test_launch_refuses_jumpif_without_compare :
    LaunchRecord.suppliesProgram { program := [(0, 0xAB000000040)] } = false := by decide +kernel
theorem test_launch_refuses_jumpv_without_data :
    LaunchRecord.suppliesProgram { program := [(0, 0xAC043000002)] } = false := by decide +kernel
theorem test_launch_refuses_static_target :
    LaunchRecord.staticallyValid { program := [(0, 0xAA000000004)] } = false := by decide +kernel
theorem test_launch_accepts :
    LaunchRecord.entryDefined { program := [(0, 0xAB000000000)], compare := some true } = true ∧
    LaunchRecord.suppliesProgram { program := [(0, 0xAB000000000)], compare := some true } = true ∧
    LaunchRecord.staticallyValid { program := [(0, 0xAB000000000)], compare := some true } = true := by
  decide +kernel

/-! ### Reserved and unassigned patterns, and the fetch (EC12 to EC16 and the text under the table) -/

theorem test_decode_refuses :
    decode 0xFFFFFFFFFFF = .error .unassignedOpcode ∧ decode 0x37000000000 = .error .unassignedOpcode ∧
    decode 0xCB043042000 = .error .unassignedOpcode ∧ decode 0x1B000000001 = .error .reservedSlots ∧
    decode 0x010C1080007 = .error .reservedSlots := by decide

theorem test_decode_table_word_past_44_bits : decodeTableWord 48 (2 ^ 44) = none := by decide

theorem test_step_illegal :
    becomes (start []) 0x37000000000 (·.faultedWith (.illegalInstruction 0x37000000000)) = true := by
  decide +kernel

theorem test_step_no_program :
    (match step (start []) with | .next t => same t ((start []).faultedWith .fetchFault) | _ => false)
      = true := by decide +kernel

theorem test_step_misaligned :
    becomes (go 0x102 0x106 (start [])) 0x1B000000000 (·.faultedWith .fetchFault) = true := by
  decide +kernel

theorem test_step_reserved :
    (match step ((start []).withFetchWord 44 0x1B000000001) with
      | .refused .reservedPattern => true | _ => false) = true := by decide +kernel

theorem test_step_stopped :
    (match step ((start []).halt .stopped) with | .fault .notRunning => true | _ => false) = true := by
  decide +kernel

/-! ### Decoding: one pattern or more for each instruction -/

/-- The patterns of the worked examples of 40_alu_arith.md. -/
theorem test_decode_arith : allRead [
    (0x010C1080000, .add 3 1 2), (0x02042FFFFFF, .addi 1 2 0xFFFFFF),
    (0x03042FFFFFF, .addiu 1 2 0xFFFFFF), (0x040C1080000, .addu 3 1 2), (0x0F042000000, .div 1 2),
    (0x10042000000, .divu 1 2), (0x17100000000, .mfhi 4), (0x18140000000, .mflo 5),
    (0x190C1080000, .mult 3 1 2), (0x1A0C1080000, .multu 3 1 2), (0x290C1080000, .sub 3 1 2),
    (0x2A0C1080000, .subu 3 1 2)] = true := by decide +kernel

/-- The patterns of the worked examples of 41_alu_logic_shift_compare.md. -/
theorem test_decode_logic : allRead [
    (0x050C1080000, .and 3 1 2), (0x06081FF00FF, .andi 2 1 0xFF00FF),
    (0x15040001234, .lui 1 0x1234), (0x15040FFFFFF, .lui 1 0xFFFFFF), (0x1C0C1080000, .or 3 1 2),
    (0x1D08100000F, .ori 2 1 15), (0x1F081000004, .sll 2 1 4), (0x200C1080000, .sllv 3 1 2),
    (0x210C1080000, .slt 3 1 2), (0x22081FFFFFF, .slti 2 1 0xFFFFFF),
    (0x23081FFFFFF, .sltiu 2 1 0xFFFFFF), (0x240C1080000, .sltu 3 1 2),
    (0x25081000004, .sra 2 1 4), (0x26081000004, .srl 2 1 4), (0x270C1080000, .srlv 3 1 2),
    (0x280C1080000, .srav 3 1 2), (0x2D0C1080000, .xor 3 1 2), (0x2E0420000FF, .xori 1 2 0xFF)] = true := by decide +kernel

/-- The patterns of the worked examples of 42_alu_control.md. -/
theorem test_decode_control : allRead [
    (0x00000000000, .stop), (0x07042000003, .beq 1 2 3), (0x07042FFFFFE, .beq 1 2 0xFFFFFE),
    (0x08040000002, .bgez 1 2), (0x09040000010, .bgezal 1 0x10), (0x0A040000002, .bgtz 1 2),
    (0x0B040000002, .blez 1 2), (0x0C040000002, .bltz 1 2), (0x0D040000002, .bltzal 1 2),
    (0x0E042FFFFFD, .bne 1 2 0xFFFFFD), (0x11000000010, .j 0x10), (0x12000000010, .jal 0x10),
    (0x137C0000000, .jr 31), (0x1B000000000, .noop), (0x2C000000000, .syscall)] = true := by decide +kernel

/-- The patterns of the worked examples of 43_alu_loadstore.md. -/
theorem test_decode_loadstore : allRead [
    (0x14081000003, .lb 2 1 3), (0x16081FFFFE0, .lw 2 1 0xFFFFE0), (0x1E042000000, .sb 1 2 0),
    (0x2B042000020, .sw 1 2 0x20)] = true := by decide +kernel

/-- The patterns of the worked examples of 44_alu_evm_arith.md. -/
theorem test_decode_evm_arith : allRead [
    (0x2F0C1080000, .mod 3 1 2), (0x300C1080000, .smod 3 1 2), (0x31101083000, .addmod 4 1 2 3),
    (0x32101083000, .mulmod 4 1 2 3), (0x330C1080000, .exp 3 1 2), (0x3408100000A, .modi 2 1 10),
    (0x35081FFFFFD, .smodi 2 1 0xFFFFFD), (0x36081000003, .expi 2 1 3)] = true := by decide +kernel

/-- The patterns of the worked examples of 45_ethereum_env.md. -/
theorem test_decode_environment : allRead [
    (0x80040000000, .gas 1), (0x8B040000000, .gaslimit 1), (0x8C040000000, .gasprice 1),
    (0x81081000000, .balance 2 1), (0x82040000000, .address 1), (0x83040000000, .origin 1),
    (0x84040000000, .caller 1), (0x85040000000, .callvalue 1), (0x86081000000, .blockhash 2 1),
    (0x87040000000, .coinbase 1), (0x88040000000, .timestamp 1), (0x89040000000, .number 1),
    (0x8A040000000, .difficulty 1), (0x8D040000000, .calldatasize 1),
    (0x8E081000000, .calldataload 2 1), (0x8F0420C0000, .calldatacopy 1 2 3),
    (0x90040000000, .codesize 1), (0x910420C0000, .codecopy 1 2 3),
    (0x92081000000, .extcodesize 2 1), (0x93081000000, .extcodehash 2 1),
    (0x940420C4000, .extcodecopy 1 2 3 4), (0x95040000000, .returndatasize 1),
    (0x960420C0000, .returndatacopy 1 2 3)] = true := by decide +kernel

/-- The patterns of the worked examples of 46_ethereum_calls_logs.md. -/
theorem test_decode_calls_logs : allRead [
    (0x97081000000, .call 2 1), (0x98081000000, .callcode 2 1),
    (0x99081000000, .delegatecall 2 1), (0x9A081000000, .staticcall 2 1),
    (0x9C0420C4140, .create2 1 2 3 4 5), (0x9B042000000, .ret 1 2), (0x9D042000000, .revert 1 2),
    (0x9E0C1080000, .keccak 3 1 2), (0x9F042000000, .log0 1 2), (0xA00420C0000, .log1 1 2 3),
    (0xA10420C4000, .log2 1 2 3 4), (0xA20420C4140, .log3 1 2 3 4 5),
    (0xA30420C4146, .log4 1 2 3 4 5 6)] = true := by decide +kernel

/-- The patterns of the worked examples of 47_eip615_subroutines.md. -/
theorem test_decode_subroutines : allRead [
    (0xAA000000040, .jumpto 0x40), (0xAB000000040, .jumpif 0x40), (0xAC043000002, .jumpv 1 3 2),
    (0xAD000000040, .jumpsub 0x40), (0xAE043000002, .jumpsubv 1 3 2), (0xAF000000000, .returnsub),
    (0xB0080000040, .getlocal 2 0x40), (0xB1080000040, .putlocal 2 0x40),
    (0xB2000000081, .beginsub 2 1), (0xB3000000000, .begindata)] = true := by decide +kernel

/-- The patterns of the worked examples of 48_eip616_simd.md. -/
theorem test_decode_simd : allRead [
    (0xB4043042000, .simdadd 1 3 1 2), (0xB5043042000, .simdmul 1 3 1 2),
    (0xB6043042000, .simdsub 1 3 1 2), (0xB7043042000, .simddiv 1 3 1 2),
    (0xB8043042000, .simdsdiv 1 3 1 2), (0xB9043042000, .simdmod 1 3 1 2),
    (0xBA043042000, .simdsmod 1 3 1 2), (0xBB043042000, .simdlt 1 3 1 2),
    (0xBC043042000, .simdgt 1 3 1 2), (0xBD043042000, .simdslt 1 3 1 2),
    (0xBE043042000, .simdsgt 1 3 1 2), (0xBF043042000, .simdeq 1 3 1 2),
    (0xC0043042000, .simdiszero 1 3 1 2), (0xC1043042000, .simdand 1 3 1 2),
    (0xC2043042000, .simdor 1 3 1 2), (0xC3043042000, .simdxor 1 3 1 2),
    (0xC4043042000, .simdnot 1 3 1 2), (0xC5043042000, .simdshl 1 3 1 2),
    (0xC6043042000, .simdshr 1 3 1 2), (0xC7043042000, .simdsar 1 3 1 2),
    (0xC8043042000, .simdrol 1 3 1 2), (0xC9043042000, .simdror 1 3 1 2),
    (0xCA043042000, .simdindex 1 3 1 2), (0xCC043042000, .simdshuffle 1 3 1 2)] = true := by decide +kernel

/-- The patterns of the worked examples of 49_mast_covenants.md. -/
theorem test_decode_covenants : allRead [
    (0xCD0C10A2000, .checkproof 3 1 2 4 2), (0xCE0C1080100, .checktemplate 3 1 2 0x100)] = true := by decide +kernel

/-! ### One step of each vector of 95_test_vectors.md -/

/-- Vectors AR1 to AR18 of 95_test_vectors.md section 2.2. -/
theorem test_arith_1 : allHold [
    becomes (start [(1, maxWord), (2, 1)]) 0x010C1080000 (·.faultedWith .overflow),
    becomes (start [(1, minWord), (2, ones)]) 0x010C1080000 (·.faultedWith .overflow),
    becomes (start [(1, ones), (2, 1)]) 0x010C1080000 (put [(3, 0)] ∘ next),
    becomes (start [(1, maxWord), (2, minWord)]) 0x010C1080000 (put [(3, ones)] ∘ next),
    becomes (start [(1, 3)]) 0x01041040000 (put [(1, 6)] ∘ next),
    becomes (start [(1, minWord)]) 0x02042FFFFFF (·.faultedWith .overflow),
    becomes (start [(1, 0)]) 0x02042FFFFFF (put [(2, ones)] ∘ next),
    becomes (start [(1, 0)]) 0x020427FFFFF (put [(2, 0x7FFFFF)] ∘ next),
    becomes (start [(1, 0)]) 0x02042800000 (put [(2, 2^256 - 2^23)] ∘ next),
    becomes (start [(1, maxWord)]) 0x02042000001 (·.faultedWith .overflow),
    becomes (start [(1, minWord)]) 0x03042FFFFFF (put [(2, maxWord)] ∘ next),
    becomes (start [(1, ones)]) 0x03042000001 (put [(2, 0)] ∘ next),
    becomes (start [(1, maxWord), (2, 1)]) 0x040C1080000 (put [(3, minWord)] ∘ next),
    becomes (start [(1, 0), (2, minWord)]) 0x290C1080000 (·.faultedWith .overflow),
    becomes (start [(1, minWord), (2, 1)]) 0x290C1080000 (·.faultedWith .overflow),
    becomes (start [(1, ones), (2, maxWord)]) 0x290C1080000 (put [(3, minWord)] ∘ next),
    becomes (start [(1, 0), (2, minWord)]) 0x2A0C1080000 (put [(3, minWord)] ∘ next),
    becomes (start [(1, minWord), (2, ones)]) 0x190C1080000 (·.faultedWith .overflow)] = true := by decide +kernel

/-- Vectors AR19 to AR34 of 95_test_vectors.md section 2.2. -/
theorem test_arith_2 : allHold [
    becomes (start [(1, 2^128), (2, 2^127)]) 0x190C1080000 (·.faultedWith .overflow),
    becomes (start [(1, 2^127), (2, 2^127)]) 0x190C1080000 (put [(3, 2^254)] ∘ next),
    becomes (start [(1, 2^256 - 2^128), (2, 2^127)]) 0x190C1080000 (put [(3, minWord)] ∘ next),
    becomes (hiLo 22 11 (start [(1, 5), (2, 6)])) 0x190C1080000 (put [(3, 0x1E)]
      ∘ hiLo 22 11 ∘ next),
    becomes (start [(1, ones), (2, ones)]) 0x1A0C1080000 (put [(3, 1)] ∘ next),
    becomes (start [(1, 2^128), (2, 2^128)]) 0x1A0C1080000 (put [(3, 0)] ∘ next),
    becomes (start [(1, neg 7), (2, 2)]) 0x0F042000000 (hiLo ones (neg 3) ∘ next),
    becomes (start [(1, 7), (2, neg 2)]) 0x0F042000000 (hiLo 1 (neg 3) ∘ next),
    becomes (start [(1, neg 7), (2, neg 2)]) 0x0F042000000 (hiLo ones 3 ∘ next),
    becomes (start [(1, minWord), (2, ones)]) 0x0F042000000 (hiLo 0 minWord ∘ next),
    becomes (start [(1, 5), (2, 0)]) 0x0F042000000 (·.faultedWith .divideByZero),
    becomes (start [(1, 0), (2, 5)]) 0x0F042000000 (hiLo 0 0 ∘ next),
    becomes (start [(1, ones), (2, 2)]) 0x10042000000 (hiLo 1 maxWord ∘ next),
    becomes (start [(1, minWord), (2, ones)]) 0x10042000000 (hiLo minWord 0 ∘ next),
    becomes (start [(1, neg 7), (2, 2)]) 0x10042000000 (hiLo 1 (2^255 - 4) ∘ next),
    becomes (start [(1, 3), (2, 0)]) 0x10042000000 (·.faultedWith .divideByZero)] = true := by decide +kernel

/-- Vectors LS1 to LS18 of 95_test_vectors.md section 2.3. -/
theorem test_logic_1 : allHold [
    becomes (start [(1, ones)]) 0x06081800000 (put [(2, 0x800000)] ∘ next),
    becomes (start [(1, 0)]) 0x1D081FFFFFF (put [(2, 0xFFFFFF)] ∘ next),
    becomes (start [(1, ones)]) 0x2E042FFFFFF (put [(2, 2^256 - 2^24)] ∘ next),
    becomes (start []) 0x15040FFFFFF (put [(1, 0xFFFFFF0000)] ∘ next),
    becomes (start []) 0x15040000000 (put [(1, 0)] ∘ next),
    becomes (start [(1, ones), (2, minWord)]) 0x050C1080000 (put [(3, minWord)] ∘ next),
    becomes (start [(1, 0x1234)]) 0x1C0C1040000 (put [(3, 0x1234)] ∘ next),
    becomes (start [(1, 0x1234)]) 0x2D0C1040000 (put [(3, 0)] ∘ next),
    becomes (start [(1, 1)]) 0x1F0810000FF (put [(2, minWord)] ∘ next),
    becomes (start [(1, ones)]) 0x1F081000100 (put [(2, 0)] ∘ next),
    becomes (start [(1, ones)]) 0x1F081000000 (put [(2, ones)] ∘ next),
    becomes (start [(1, 1)]) 0x1F081FFFFFF (put [(2, 0)] ∘ next),
    becomes (start [(1, ones)]) 0x260810000FF (put [(2, 1)] ∘ next),
    becomes (start [(1, ones)]) 0x26081000100 (put [(2, 0)] ∘ next),
    becomes (start [(1, neg 3)]) 0x25081000001 (put [(2, neg 2)] ∘ next),
    becomes (start [(1, minWord)]) 0x250810000FF (put [(2, ones)] ∘ next),
    becomes (start [(1, minWord)]) 0x25081000100 (put [(2, ones)] ∘ next),
    becomes (start [(1, maxWord)]) 0x25081000100 (put [(2, 0)] ∘ next)] = true := by decide +kernel

/-- Vectors LS19 to LS32 of 95_test_vectors.md section 2.3. -/
theorem test_logic_2 : allHold [
    becomes (start [(1, 1), (2, minWord)]) 0x200C1080000 (put [(3, 0)] ∘ next),
    becomes (start [(1, 3), (2, 0xFE)]) 0x200C1080000 (put [(3, 2^256 - 2^254)] ∘ next),
    becomes (start [(1, minWord), (2, 0xFF)]) 0x270C1080000 (put [(3, 1)] ∘ next),
    becomes (start [(1, minWord), (2, 0x100)]) 0x270C1080000 (put [(3, 0)] ∘ next),
    becomes (start [(1, neg 256), (2, 4)]) 0x280C1080000 (put [(3, neg 16)] ∘ next),
    becomes (start [(1, maxWord), (2, ones)]) 0x280C1080000 (put [(3, 0)] ∘ next),
    becomes (start [(1, minWord), (2, maxWord)]) 0x210C1080000 (put [(3, 1)] ∘ next),
    becomes (start [(1, minWord), (2, maxWord)]) 0x240C1080000 (put [(3, 0)] ∘ next),
    becomes (start [(1, 5), (2, 5)]) 0x210C1080000 (put [(3, 0)] ∘ next),
    becomes (start [(1, neg 8388609)]) 0x22081800000 (put [(2, 1)] ∘ next),
    becomes (start [(1, 0)]) 0x22081800000 (put [(2, 0)] ∘ next),
    becomes (start [(1, 0x7FFFFF)]) 0x23081800000 (put [(2, 1)] ∘ next),
    becomes (start [(1, ones)]) 0x23081800000 (put [(2, 0)] ∘ next),
    becomes (start [(1, 0)]) 0x23081000000 (put [(2, 0)] ∘ next)] = true := by decide +kernel

/-- Vectors CT1 to CT18 of 95_test_vectors.md section 2.4. -/
theorem test_control_1 : allHold [
    becomes (start [(1, 9), (2, 9)]) 0x07042000003 (jumpTo 0x110),
    becomes (start [(1, 9), (2, 8)]) 0x07042000003 next,
    becomes (start [(1, 9)]) 0x07041000000 (jumpTo 0x104),
    becomes (start [(1, 9)]) 0x07041FFFFFF (jumpTo 0x100),
    becomes (start [(1, ones), (2, maxWord)]) 0x0E042FFFFFD (jumpTo 0xF8),
    becomes (start [(1, 0)]) 0x09040000010 (put [(31, 0x10C)] ∘ jumpTo 0x144),
    becomes (start [(1, minWord), (31, 0x777)]) 0x09040000010 (put [(31, 0x777)] ∘ next),
    becomes (start [(31, ones)]) 0x0D7C0000002 (put [(31, 0x10C)] ∘ jumpTo 0x10C),
    becomes (start [(1, minWord)]) 0x0A040000002 next,
    becomes (go 0x2FFFFFFC 0x30000000 (start [])) 0x11000000010 (go 0x30000000 0x30000040),
    becomes (start []) 0x11004000000 (jumpTo 0x10000000),
    becomes (start []) 0x11400000000 (jumpTo 0x0),
    becomes (start []) 0x11FFFFFFFFF (jumpTo 0xFFFFFFFC),
    becomes (go 0xFFFFFFF8 0xFFFFFFFC (start [])) 0x12000000010 (put [(31, 0)]
      ∘ go 0xFFFFFFFC 0xF0000040),
    becomes (start [(1, 0x100000108)]) 0x13040000000 next,
    becomes (start [(1, 0x106)]) 0x13040000000 (jumpTo 0x106),
    becomes (go 0x104 0x200 (start [(1, 0)])) 0x07041000004 (go 0x200 0x210),
    becomes (go 0x104 0x200 (start [])) 0x12000000010 (put [(31, 0x10C)] ∘ go 0x200 0x40)] = true := by decide +kernel

/-- Vectors CT19 to CT21 of 95_test_vectors.md section 2.4. -/
theorem test_control_2 : allHold [
    becomes (go 0x104 0x200 (start [])) 0x00000000000 ((·.halt .stopped) ∘ jumpTo 0x200),
    becomes (start []) 0x1B000000000 next,
    becomes (start []) 0x2C000000000 next] = true := by decide +kernel

/-- Vectors LD1 to LD13 of 95_test_vectors.md section 2.5. -/
theorem test_loadstore : allHold [
    becomes (start [(1, 0xFFFF)] [(0xFFFF, 1, 0x7F)]) 0x14081000000 (put [(2, 0x7F)] ∘ next),
    becomes (start [(1, 0x10000)]) 0x14081000000 (·.faultedWith (.memoryFault 0x10000 1)),
    becomes (start [(1, 0x10000)] [(0xFFFF, 1, 0xFF)]) 0x14081FFFFFF (put [(2, ones)] ∘ next),
    becomes (start [(1, 0xFFE0)] [(0xFFE0, 32,
      0x0102030405060708090A0B0C0D0E0F101112131415161718191A1B1C1D1E1F20)]) 0x16081000000 (put [(2,
      0x0102030405060708090A0B0C0D0E0F101112131415161718191A1B1C1D1E1F20)] ∘ next),
    becomes (start [(1, 0xFFE1)]) 0x16081000000 (·.faultedWith (.memoryFault 0xFFE1 32)),
    becomes (start [(1, 0)]) 0x16081FFFFE0 (·.faultedWith (.memoryFault (2 ^ 256 - 32) 32)),
    becomes (start [(1, ones)] [(0, 1, 0xAA)]) 0x16081000001 (put [(2,
      0xAA00000000000000000000000000000000000000000000000000000000000000)] ∘ next),
    becomes (start [(1, 0x40)] [(0x5F, 1, 0x01), (0x60, 1, 0x02)]) 0x16081000001 (put [(2, 0x102)]
      ∘ next),
    becomes (start [(1, 0x40), (2, 0x1FF)]) 0x1E042000000 (poke [(0x3F, 3, 0x00FF00)] ∘ next),
    becomes (start [(1, 0x10000), (2, 1)]) 0x1E042000000 (·.faultedWith (.memoryFault 0x10000 1)),
    becomes (start [(1, 0x40), (2, 0x102030405)]) 0x2B042000000 (poke [(0x40, 32,
      0x0000000000000000000000000000000000000000000000000000000102030405)] ∘ next),
    becomes (start [(1, 0xFFE1), (2, ones)]) 0x2B042000000 (·.faultedWith (.memoryFault 0xFFE1 32)),
    becomes (start [(1, 0x800000), (2, 7)]) 0x2B042800000 (poke [(0x1E, 2, 0x0007)] ∘ next)] = true := by decide +kernel

/-- Vectors EV1 to EV18 of 95_test_vectors.md section 2.6. -/
theorem test_evm_arith_1 : allHold [
    becomes (start [(1, ones), (2, 0xA)]) 0x2F0C1080000 (put [(3, 5)]
      ∘ hiLo 5 0x1999999999999999999999999999999999999999999999999999999999999999 ∘ next),
    becomes (start [(1, 0x11), (2, 0)]) 0x2F0C1080000 (·.faultedWith .divideByZero),
    becomes (start [(1, 3), (2, 5)]) 0x2F0C1080000 (put [(3, 3)] ∘ hiLo 3 0 ∘ next),
    becomes (start [(1, minWord), (2, ones)]) 0x300C1080000 (put [(3, 0)] ∘ hiLo 0 minWord ∘ next),
    becomes (start [(1, neg 17), (2, neg 5)]) 0x300C1080000 (put [(3, neg 2)] ∘ hiLo (neg 2)
      3 ∘ next),
    becomes (start [(1, maxWord), (2, 1), (3, 7)]) 0x31101083000 (·.faultedWith .overflow),
    becomes (start [(1, ones), (2, 1), (3, 7)]) 0x31101083000 (·.faultedWith .overflow),
    becomes (start [(1, maxWord), (2, 1), (3, 0)]) 0x31101083000 (·.faultedWith .overflow),
    becomes (start [(1, 0xA), (2, 9), (3, 0)]) 0x31101083000 (·.faultedWith .divideByZero),
    becomes (start [(1, 0xA), (2, 9), (3, 7)]) 0x310C1083000 (put [(3, 5)] ∘ hiLo 5 2 ∘ next),
    becomes (start [(1, minWord), (2, maxWord), (3, ones)]) 0x31101083000 (put [(4, 0)]
      ∘ hiLo 0 1 ∘ next),
    becomes (start [(1, minWord), (2, 2), (3, 7)]) 0x32101083000 (put [(4, 0)] ∘ hiLo 0 0 ∘ next),
    becomes (start [(1, 2^127), (2, 2^128), (3, 0xA)]) 0x32101083000 (put [(4, 8)]
      ∘ hiLo 8 0x0CCCCCCCCCCCCCCCCCCCCCCCCCCCCCCCCCCCCCCCCCCCCCCCCCCCCCCCCCCCCCCC ∘ next),
    becomes (start [(1, 3), (2, 4), (3, 0)]) 0x32101083000 (·.faultedWith .divideByZero),
    becomes (hiLo 22 11 (start [(1, 0), (2, 0), (3, 0x63)])) 0x330C1080000 (put [(3, 1)]
      ∘ hiLo 22 11 ∘ next),
    becomes (start [(1, 2), (2, 0xFF)]) 0x330C1080000 (put [(3, minWord)] ∘ next),
    becomes (start [(1, 2), (2, 0x100)]) 0x330C1080000 (put [(3, 0)] ∘ next),
    becomes (start [(1, 3), (2, ones)]) 0x330C1080000 (put [(3,
      0xAAAAAAAAAAAAAAAAAAAAAAAAAAAAAAAAAAAAAAAAAAAAAAAAAAAAAAAAAAAAAAAB)] ∘ next)] = true := by decide +kernel

/-- Vectors EV19 to EV28 of 95_test_vectors.md section 2.6. -/
theorem test_evm_arith_2 : allHold [
    becomes (start [(1, 4)]) 0x33041040000 (put [(1, 0x100)] ∘ next),
    becomes (start [(1, ones), (2, 2)]) 0x330C1080000 (put [(3, 1)] ∘ next),
    becomes (start [(1, 5)]) 0x34081000000 (·.faultedWith .divideByZero),
    becomes (start [(1, 0x800001)]) 0x34081800000 (put [(2, 1)] ∘ hiLo 1 1 ∘ next),
    becomes (start [(1, 0xA)]) 0x35081FFFFFD (put [(2, 1)] ∘ hiLo 1 (neg 3) ∘ next),
    becomes (start [(1, minWord)]) 0x35081FFFFFF (put [(2, 0)] ∘ hiLo 0 minWord ∘ next),
    becomes (start [(1, minWord)]) 0x35081000000 (·.faultedWith .divideByZero),
    becomes (start [(1, 0)]) 0x36081000000 (put [(2, 1)] ∘ next),
    becomes (start [(1, 3)]) 0x36081FFFFFF (put [(2,
      0xC5421EEFEB41E4F68C3BB9499FB51EB038C37E1D7D371C357D23864DA6AAAAAB)] ∘ next),
    becomes (start [(1, 2^128)]) 0x36041000002 (put [(1, 0)] ∘ next)] = true := by decide +kernel

/-- Vectors EN1 to EN18 of 95_test_vectors.md section 2.7. -/
theorem test_environment_1 : allHold [
    becomes (start []) 0x80040000000 (put [(1, 0x186A0)] ∘ next),
    becomes (start [(1, 2^200)]) 0x81081000000 (put [(2, 0)] ∘ next),
    becomes (start [(1, 0x40)] [(0x40, 9, 0x0000000000000100FF)]) 0x86081000000 (put [(2,
      0xB10C0100)] ∘ next),
    becomes (start [(1, 0xFFF9)]) 0x86081000000 (·.faultedWith (.memoryFault 0xFFF9 8)),
    becomes (start []) 0x8D040000000 (put [(1, 0x24)] ∘ next),
    becomes (start [(1, 4)]) 0x8E081000000 (put [(2,
      0x1415161718191A1B1C1D1E1F202122232425262728292A2B2C2D2E2F30313233)] ∘ next),
    becomes (start [(1, 5)]) 0x8E081000000 (·.faultedWith (.envRangeFault 0x5 32)),
    becomes (start [(1, ones)]) 0x8E081000000 (·.faultedWith (.envRangeFault ones 32)),
    becomes (start [(1, 0x80), (2, 0x20), (3, 4)]) 0x8F0420C0000 (poke [(0x7F, 6, 0x003031323300)]
      ∘ next),
    becomes (start [(1, ones), (2, ones), (3, 0)]) 0x8F0420C0000 next,
    becomes (start [(1, 0x10000), (2, 0x21), (3, 4)])
      0x8F0420C0000 (·.faultedWith (.envRangeFault 0x21 4)),
    becomes (start [(1, 0xFFFD), (2, 0), (3, 4)])
      0x8F0420C0000 (·.faultedWith (.memoryFault 0xFFFD 4)),
    becomes (start []) 0x90040000000 (put [(1, 0xB)] ∘ next),
    becomes (start [(1, 0), (2, 9), (3, 2)]) 0x910420C0000 (poke [(0x0, 3, 0xC9CA00)] ∘ next),
    becomes (start [(1, 0), (2, 9), (3, 3)]) 0x910420C0000 (·.faultedWith (.envRangeFault 0x9 3)),
    becomes (start [(1, 0xAC)]) 0x92081000000 (put [(2, 0)] ∘ next),
    becomes (start [(1, 0xAC)]) 0x93081000000 (put [(2, 0)] ∘ next),
    becomes (start [(1, 0x100), (4, 0xAB), (2, 0), (3, 4)]) 0x940420C4000 (poke [(0x100, 4,
      0xC0C1C2C3)] ∘ next)] = true := by decide +kernel

/-- Vectors EN19 to EN21 of 95_test_vectors.md section 2.7. -/
theorem test_environment_2 : allHold [
    becomes (start []) 0x95040000000 (put [(1, 0)] ∘ next),
    becomes (start [(1, 0), (2, 0), (3, 1)]) 0x960420C0000 (·.faultedWith (.envRangeFault 0x0 1)),
    becomes (start [(1, 0), (2, 0), (3, 0)]) 0x960420C0000 next] = true := by decide +kernel

/-- Vectors CL1 to CL12 of 95_test_vectors.md section 2.8. -/
theorem test_calls_logs : allHold [
    becomes (start [(1, 0x40), (2, 0x40)]) 0x9E0C1080000 (·.faultedWith .invalidRange),
    becomes (start [(1, 0x20000), (2, 0x10)]) 0x9E0C1080000 (·.faultedWith .invalidRange),
    becomes (start [(1, 0xFFF0), (2, 0x10001)])
      0x9E0C1080000 (·.faultedWith (.memoryFault 0xFFF0 17)),
    becomes (start [(1, ones), (2, 0)]) 0x9B042000000 (·.halt (.returned [])),
    becomes (start [(1, 0xFFFF), (2, 2)]) 0x9B042000000 (·.faultedWith (.memoryFault 0xFFFF 2)),
    becomes (start [(1, 0x40), (2, 2)] [(0x40, 2, 0xDEAD)]) 0x9D042000000 (·.halt (.reverted [0xDE,
      0xAD])),
    becomes (start [(1, 0xFFFF), (2, 2)]) 0x9F042000000 (·.faultedWith (.memoryFault 0xFFFF 2)),
    becomes (start [(1, ones), (2, 0)]) 0x9F042000000 ((fun s => { s with log := [⟨[], []⟩] })
      ∘ next),
    becomes (start [(1, 0x40), (2, 3), (3, 7), (4, 8), (5, ones), (6, 0)] [(0x40, 3, 0x616263)])
      0xA30420C4146 ((fun s => { s with log := [⟨[7, 8, BitVec.ofNat 256 ones, 0], [0x61, 0x62,
      0x63]⟩] }) ∘ next),
    becomes (start [(1, 0x40), (2, 0), (3, 5)]) 0xA10420C3000 ((fun s => { s with log := [⟨[5, 5],
      []⟩] }) ∘ next),
    becomes (start [(1, 0xFF30)]) 0x97081000000 (·.faultedWith (.memoryFault 0xFF30 224))] = true := by decide +kernel

/-- Vectors SR1 to SR18 of 95_test_vectors.md section 2.9. -/
theorem test_subroutines_1 : allHold [
    becomes (start []) 0xAA000FFFFFF (jumpTo 0xFFFFFF),
    becomes { start [] with compare := true } 0xAB000000040 (jumpTo 0x40),
    becomes { start [] with compare := false } 0xAB000000040 next,
    becomes (start [(1, 0)]) 0xAC043000002 (jumpTo 0x220),
    becomes (start [(1, 2)]) 0xAC043000002 (jumpTo 0x240),
    becomes (start [(1, ones)]) 0xAC043000002 (jumpTo 0x240),
    becomes (start [(1, 2)]) 0xAC043000003 (·.faultedWith (.dataRangeFault 5)),
    becomes (start [(1, 0)]) 0xAC040000000 (·.faultedWith (.dataRangeFault (-1))),
    becomes (start []) 0xAD000000040 ((fun s => { s with callstack := [0x104] }) ∘ jumpTo 0x40),
    becomes (start [(1, 1)]) 0xAE043000002 ((fun s => { s with callstack := [0x104] })
      ∘ jumpTo 0x230),
    becomes (start [(1, 9)]) 0xAE043000003 (·.faultedWith (.dataRangeFault 5)),
    becomes { (go 0x40 0x44 (start [])) with callstack := [0x204, 0x104]
      } 0xAF000000000 ((fun s => { s with callstack := [0x104] }) ∘ go 0x44 0x204),
    becomes (start []) 0xAF000000000 (·.faultedWith .callStackUnderflow),
    becomes { start [(2, 0x102)] with marker := 0x1000 } 0xB1080000040 (poke [(0x105E, 2, 0x0102)]
      ∘ next),
    becomes { start [] [(0x105E, 1, 0x01), (0x105F, 1, 0x02)]
      with marker := 0x1000 } 0xB008000003F (put [(2, 1)] ∘ next),
    becomes { start [] with marker := 0 } 0xB0080FFFFFF (·.faultedWith (.memoryFault 0xFFFFFF 32)),
    becomes { start [(2, 1)]
      with marker := 0xFFE1 } 0xB1080000000 (·.faultedWith (.memoryFault 0xFFE1 32)),
    becomes (start []) 0xB2000000FFF ((fun s => { s with subs := [0x100] }) ∘ next)] = true := by decide +kernel

/-- Vectors SR19 to SR19 of 95_test_vectors.md section 2.9. -/
theorem test_subroutines_2 : allHold [
    becomes (start []) 0xB3000000000 (·.faultedWith .dataExecuted)] = true := by decide +kernel

/-- Vectors SD1 to SD12 of 95_test_vectors.md section 2.10. -/
theorem test_simd_1 : allHold [
    becomes (start [(1, 0x100), (2, 0x120), (3, 0x140)] [(0x100, 1, 0xFF), (0x100 + 1, 1, 1),
      (0x100 + 2, 1, 2), (0x100 + 3, 1, 0x80), (0x120, 1, 1), (0x120 + 1, 1, 1), (0x120 + 2, 1, 1),
      (0x120 + 3, 1, 0x80)]) 0xB40C3042000 (poke [(0x140, 1, 0), (0x140 + 1, 1, 2), (0x140 + 2, 1,
      3), (0x140 + 3, 1, 0)] ∘ next),
    becomes (start [(1, 0x100), (2, 0x120), (3, 0x140)] [(0x100, 4, 0x01020304), (0x120, 4,
      0x00FFFFFF)]) 0xB4103042000 (poke [(0x140, 4, 0x02010303)] ∘ next),
    becomes (start [(1, ones), (2, 0x120), (3, 0x140)]) 0xB4083042000 (·.faultedWith .simdFault),
    becomes (start [(1, 0x100), (2, 0x120), (3, 0xFFE1)] [(0x100, 8, 1), (0x100 + 8, 8, 2),
      (0x100 + 16, 8, 3), (0x100 + 24, 8, 4), (0x120, 8, 1), (0x120 + 8, 8, 1), (0x120 + 16, 8, 1),
      (0x120 + 24, 8, 1)]) 0xB4043042000 (·.faultedWith (.memoryFault 0xFFE1 32)),
    becomes (start [(1, 0x100), (2, 0x120), (3, 0x140)] [(0x100, 8, 1), (0x100 + 8, 8, 2),
      (0x100 + 16, 8, 3), (0x100 + 24, 8, 2^64 - 1), (0x120, 8, 0xA), (0x120 + 8, 8, 0x14),
      (0x120 + 16, 8, 0x1E), (0x120 + 24, 8, 1)]) 0xB4041042000 (poke [(0x100, 8, 0xB), (0x100 + 8,
      8, 0x16), (0x100 + 16, 8, 0x21), (0x100 + 24, 8, 0)] ∘ next),
    becomes (start [(1, 0x100), (2, 0x120), (3, 0x140)] [(0x100, 8, 2^64 - 1), (0x100 + 8, 8,
      0x100000000), (0x100 + 16, 8, 3), (0x100 + 24, 8, 0), (0x120, 8, 2^64 - 1), (0x120 + 8, 8,
      0x100000000), (0x120 + 16, 8, 2^64 - 1), (0x120 + 24, 8, 5)]) 0xB5043042000 (poke [(0x140, 8,
      1), (0x140 + 8, 8, 0), (0x140 + 16, 8, 18446744073709551613), (0x140 + 24, 8, 0)] ∘ next),
    becomes (start [(1, 0x100), (2, 0x120), (3, 0x140)] [(0x100, 8, 0), (0x100 + 8, 8, 5),
      (0x100 + 16, 8, 2^63), (0x100 + 24, 8, 7), (0x120, 8, 1), (0x120 + 8, 8, 5), (0x120 + 16, 8,
      1), (0x120 + 24, 8, 2^64 - 1)]) 0xB6043042000 (poke [(0x140, 8, 2^64 - 1), (0x140 + 8, 8, 0),
      (0x140 + 16, 8, 0x7FFFFFFFFFFFFFFF), (0x140 + 24, 8, 8)] ∘ next),
    becomes (start [(1, 0x100), (2, 0x120), (3, 0x140)] [(0x100, 8, 0xA), (0x100 + 8, 8, 0x15),
      (0x100 + 16, 8, 7), (0x100 + 24, 8, 5), (0x120, 8, 2), (0x120 + 8, 8, 4), (0x120 + 16, 8, 0),
      (0x120 + 24, 8, 1)]) 0xB7043042000 (·.faultedWith .divideByZero),
    becomes (start [(1, 0x100), (2, 0x120), (3, 0x140)] [(0x100, 8, 2^63), (0x100 + 8, 8,
      18446744073709551609), (0x100 + 16, 8, 7), (0x100 + 24, 8, 0), (0x120, 8, 2^64 - 1),
      (0x120 + 8, 8, 2), (0x120 + 16, 8, 18446744073709551614), (0x120 + 24, 8, 9)])
      0xB8043042000 (poke [(0x140, 8, 2^63), (0x140 + 8, 8, 18446744073709551613), (0x140 + 16, 8,
      18446744073709551613), (0x140 + 24, 8, 0)] ∘ next),
    becomes (start [(1, 0x100), (2, 0x120), (3, 0x140)] [(0x100, 8, 2^64 - 1), (0x100 + 8, 8,
      0x15), (0x100 + 16, 8, 7), (0x100 + 24, 8, 5), (0x120, 8, 0xA), (0x120 + 8, 8, 4),
      (0x120 + 16, 8, 7), (0x120 + 24, 8, 0)]) 0xB9043042000 (·.faultedWith .divideByZero),
    becomes (start [(1, 0x100), (2, 0x120), (3, 0x140)] [(0x100, 8, 2^63), (0x100 + 8, 8,
      18446744073709551609), (0x100 + 16, 8, 7), (0x100 + 24, 8, 18446744073709551608), (0x120, 8,
      2^64 - 1), (0x120 + 8, 8, 2), (0x120 + 16, 8, 18446744073709551614), (0x120 + 24, 8, 3)])
      0xBA043042000 (poke [(0x140, 8, 0), (0x140 + 8, 8, 2^64 - 1), (0x140 + 16, 8, 1),
      (0x140 + 24, 8, 18446744073709551614)] ∘ next),
    becomes (start [(1, 0x100), (2, 0x120), (3, 0x140)] [(0x100, 8, 2^64 - 1), (0x100 + 8, 8, 0),
      (0x100 + 16, 8, 5), (0x100 + 24, 8, 2^63), (0x120, 8, 0), (0x120 + 8, 8, 2^64 - 1),
      (0x120 + 16, 8, 5), (0x120 + 24, 8, 0x7FFFFFFFFFFFFFFF)]) 0xBB043042000 (poke [(0x140, 8, 0),
      (0x140 + 8, 8, 1), (0x140 + 16, 8, 0), (0x140 + 24, 8, 0)] ∘ next)] = true := by decide +kernel

/-- Vectors SD13 to SD24 of 95_test_vectors.md section 2.10. -/
theorem test_simd_2 : allHold [
    becomes (start [(1, 0x100), (2, 0x120), (3, 0x140)] [(0x100, 8, 2^64 - 1), (0x100 + 8, 8, 0),
      (0x100 + 16, 8, 5), (0x100 + 24, 8, 2^63), (0x120, 8, 0), (0x120 + 8, 8, 2^64 - 1),
      (0x120 + 16, 8, 5), (0x120 + 24, 8, 0x7FFFFFFFFFFFFFFF)]) 0xBD043042000 (poke [(0x140, 8, 1),
      (0x140 + 8, 8, 0), (0x140 + 16, 8, 0), (0x140 + 24, 8, 1)] ∘ next),
    becomes (start [(1, 0x100), (2, 0x120), (3, 0x140)] [(0x100, 8, 2^64 - 1), (0x100 + 8, 8, 0),
      (0x100 + 16, 8, 5), (0x100 + 24, 8, 2^63), (0x120, 8, 0), (0x120 + 8, 8, 2^64 - 1),
      (0x120 + 16, 8, 5), (0x120 + 24, 8, 0x7FFFFFFFFFFFFFFF)]) 0xBC043042000 (poke [(0x140, 8, 1),
      (0x140 + 8, 8, 0), (0x140 + 16, 8, 0), (0x140 + 24, 8, 1)] ∘ next),
    becomes (start [(1, 0x100), (2, 0x120), (3, 0x140)] [(0x100, 8, 2^64 - 1), (0x100 + 8, 8, 0),
      (0x100 + 16, 8, 5), (0x100 + 24, 8, 2^63), (0x120, 8, 0), (0x120 + 8, 8, 2^64 - 1),
      (0x120 + 16, 8, 5), (0x120 + 24, 8, 0x7FFFFFFFFFFFFFFF)]) 0xBE043042000 (poke [(0x140, 8, 0),
      (0x140 + 8, 8, 1), (0x140 + 16, 8, 0), (0x140 + 24, 8, 0)] ∘ next),
    becomes (start [(1, 0x100), (2, 0x120), (3, 0x140)] [(0x100, 8, 2^64 - 1), (0x100 + 8, 8, 0),
      (0x100 + 16, 8, 5), (0x100 + 24, 8, 2^63), (0x120, 8, 2^64 - 1), (0x120 + 8, 8, 1),
      (0x120 + 16, 8, 5), (0x120 + 24, 8, 0)]) 0xBF043042000 (poke [(0x140, 8, 1), (0x140 + 8, 8,
      0), (0x140 + 16, 8, 1), (0x140 + 24, 8, 0)] ∘ next),
    becomes (start [(1, 0x100), (2, ones), (3, 0x140)] [(0x100, 8, 0), (0x100 + 8, 8, 1),
      (0x100 + 16, 8, 2^64 - 1), (0x100 + 24, 8, 0)]) 0xC0043042000 (poke [(0x140, 8, 1),
      (0x140 + 8, 8, 0), (0x140 + 16, 8, 0), (0x140 + 24, 8, 1)] ∘ next),
    becomes (start [(1, 0x100), (2, ones), (3, 0x140)] [(0x100, 8, 0), (0x100 + 8, 8, 1),
      (0x100 + 16, 8, 2^64 - 1), (0x100 + 24, 8, 2^63)]) 0xC4043042000 (poke [(0x140, 8, 2^64 - 1),
      (0x140 + 8, 8, 18446744073709551614), (0x140 + 16, 8, 0), (0x140 + 24, 8,
      0x7FFFFFFFFFFFFFFF)] ∘ next),
    becomes (start [(1, 0x100), (2, 0x120), (3, 0x140)] [(0x100, 8, 2^64 - 1), (0x100 + 8, 8,
      0xF0F0), (0x100 + 16, 8, 0), (0x100 + 24, 8, 5), (0x120, 8, 2^63), (0x120 + 8, 8, 0xFF00),
      (0x120 + 16, 8, 2^64 - 1), (0x120 + 24, 8, 2)]) 0xC1043042000 (poke [(0x140, 8, 2^63),
      (0x140 + 8, 8, 0xF000), (0x140 + 16, 8, 0), (0x140 + 24, 8, 0)] ∘ next),
    becomes (start [(1, 0x100), (2, 0x120), (3, 0x140)] [(0x100, 8, 2^63), (0x100 + 8, 8, 0xF0F0),
      (0x100 + 16, 8, 0), (0x100 + 24, 8, 5), (0x120, 8, 1), (0x120 + 8, 8, 0xFF00), (0x120 + 16,
      8, 2^64 - 1), (0x120 + 24, 8, 2)]) 0xC2043042000 (poke [(0x140, 8, 0x8000000000000001),
      (0x140 + 8, 8, 0xFFF0), (0x140 + 16, 8, 2^64 - 1), (0x140 + 24, 8, 7)] ∘ next),
    becomes (start [(1, 0x100), (2, 0x120), (3, 0x140)] [(0x100, 8, 2^64 - 1), (0x100 + 8, 8,
      0xF0F0), (0x100 + 16, 8, 0), (0x100 + 24, 8, 5), (0x120, 8, 2^64 - 1), (0x120 + 8, 8,
      0xFF00), (0x120 + 16, 8, 2^64 - 1), (0x120 + 24, 8, 5)]) 0xC3043042000 (poke [(0x140, 8, 0),
      (0x140 + 8, 8, 0xFF0), (0x140 + 16, 8, 2^64 - 1), (0x140 + 24, 8, 0)] ∘ next),
    becomes (start [(1, 0x100), (2, 0x120), (3, 0x140)] [(0x100, 8, 1), (0x100 + 8, 8, 3),
      (0x100 + 16, 8, 2^64 - 1), (0x100 + 24, 8, 1), (0x120, 8, 0x3F), (0x120 + 8, 8, 0x3F),
      (0x120 + 16, 8, 0x40), (0x120 + 24, 8, 2^64 - 1)]) 0xC5043042000 (poke [(0x140, 8, 2^63),
      (0x140 + 8, 8, 2^63), (0x140 + 16, 8, 0), (0x140 + 24, 8, 0)] ∘ next),
    becomes (start [(1, 0x100), (2, 0x120), (3, 0x140)] [(0x100, 8, 2^63), (0x100 + 8, 8,
      2^64 - 1), (0x100 + 16, 8, 2^64 - 1), (0x100 + 24, 8, 1), (0x120, 8, 0x3F), (0x120 + 8, 8,
      1), (0x120 + 16, 8, 0x40), (0x120 + 24, 8, 0)]) 0xC6043042000 (poke [(0x140, 8, 1),
      (0x140 + 8, 8, 0x7FFFFFFFFFFFFFFF), (0x140 + 16, 8, 0), (0x140 + 24, 8, 1)] ∘ next),
    becomes (start [(1, 0x100), (2, 0x120), (3, 0x140)] [(0x100, 8, 2^63), (0x100 + 8, 8,
      18446744073709551613), (0x100 + 16, 8, 0x7FFFFFFFFFFFFFFF), (0x100 + 24, 8, 2^63), (0x120, 8,
      0x3F), (0x120 + 8, 8, 1), (0x120 + 16, 8, 0x40), (0x120 + 24, 8, 2^64 - 1)])
      0xC7043042000 (poke [(0x140, 8, 2^64 - 1), (0x140 + 8, 8, 18446744073709551614), (0x140 + 16,
      8, 0), (0x140 + 24, 8, 2^64 - 1)] ∘ next)] = true := by decide +kernel

/-- Vectors SD25 to SD33 of 95_test_vectors.md section 2.10. -/
theorem test_simd_3 : allHold [
    becomes (start [(1, 0x100), (2, 0x120), (3, 0x140)] [(0x100, 8, 2^63), (0x100 + 8, 8,
      0x123456789ABCDEF), (0x100 + 16, 8, 5), (0x100 + 24, 8, 1), (0x120, 8, 1), (0x120 + 8, 8, 8),
      (0x120 + 16, 8, 0x40), (0x120 + 24, 8, 0x41)]) 0xC8043042000 (poke [(0x140, 8, 1),
      (0x140 + 8, 8, 0x23456789ABCDEF01), (0x140 + 16, 8, 5), (0x140 + 24, 8, 2)] ∘ next),
    becomes (start [(1, 0x100), (2, 0x120), (3, 0x140)] [(0x100, 8, 1), (0x100 + 8, 8,
      0x123456789ABCDEF), (0x100 + 16, 8, 5), (0x100 + 24, 8, 2), (0x120, 8, 1), (0x120 + 8, 8, 8),
      (0x120 + 16, 8, 0x40), (0x120 + 24, 8, 0x41)]) 0xC9043042000 (poke [(0x140, 8, 2^63),
      (0x140 + 8, 8, 0xEF0123456789ABCD), (0x140 + 16, 8, 5), (0x140 + 24, 8, 1)] ∘ next),
    becomes (start [(1, 0x100), (2, 0x120), (3, 0x140)] [(0x100, 8, 0xA), (0x100 + 8, 8, 0x14),
      (0x100 + 16, 8, 0x1E), (0x100 + 24, 8, 0x28), (0x120, 8, 1), (0x120 + 8, 8, 1), (0x120 + 16,
      8, 3), (0x120 + 24, 8, 0)]) 0xCC043042000 (poke [(0x140, 8, 0x14), (0x140 + 8, 8, 0x14),
      (0x140 + 16, 8, 0x28), (0x140 + 24, 8, 0xA)] ∘ next),
    becomes (start [(1, 0x100), (2, 0x120), (3, 0x140)] [(0x100, 8, 0xA), (0x100 + 8, 8, 0x14),
      (0x100 + 16, 8, 0x1E), (0x100 + 24, 8, 0x28), (0x120, 8, 0), (0x120 + 8, 8, 1), (0x120 + 16,
      8, 2), (0x120 + 24, 8, 4)]) 0xCC043042000 (·.faultedWith .simdFault),
    becomes (start [(1, 0x100), (2, 0x120), (3, 0x140)] [(0x100, 8, 0xA), (0x100 + 8, 8, 0x14),
      (0x100 + 16, 8, 0x1E), (0x100 + 24, 8, 0x28), (0x120, 8, 3), (0x120 + 8, 8, 2), (0x120 + 16,
      8, 1), (0x120 + 24, 8, 0)]) 0xCC041042000 (poke [(0x100, 8, 0x28), (0x100 + 8, 8, 0x1E),
      (0x100 + 16, 8, 0x14), (0x100 + 24, 8, 0xA)] ∘ next),
    becomes (start [(1, 0x100), (2, 0x120), (3, 0x140)] [(0x100, 8, 0xA), (0x100 + 8, 8, 0x14),
      (0x100 + 16, 8, 0x1E), (0x100 + 24, 8, 2^63)]) 0xCA043043000 (put [(3, 2^63)] ∘ next),
    becomes (start [(1, 0x100), (2, 0x120), (3, 0x140)] [(0x100, 8, 0xA), (0x100 + 8, 8, 0x14),
      (0x100 + 16, 8, 0x1E), (0x100 + 24, 8, 0x28)]) 0xCA043044000 (·.faultedWith .simdFault),
    becomes (start [(1, 0xFFF8), (2, 0x120), (3, 0x140)] [(0xFFF8, 8, 0x4D)])
      0xCA043040000 (put [(3, 0x4D)] ∘ next),
    becomes (start [(1, 0xFFF8), (2, 0x120), (3, 0x140)])
      0xCA043041000 (·.faultedWith (.memoryFault 0x10000 8))] = true := by decide +kernel

/-- Vectors MC1 to MC5 of 95_test_vectors.md section 2.11. -/
theorem test_covenants : allHold [
    becomes (start [(1, ones), (2, 0)]) 0xCE0C1080000 (put [(3, 1)] ∘ next),
    becomes (start [(1, minWord), (2, minWord)]) 0xCE0C10BFFFF (put [(3, 0)] ∘ next),
    becomes (start [(1, 0xF0), (2, 0xF)]) 0xCE041080000 (put [(1, 1)] ∘ next),
    becomes (start [(1, 0), (2, ones)]) 0xCE0C1080000 (put [(3, 1)] ∘ next),
    becomes (start [(1, 0xFF40)]) 0xCD0C10BF000 (·.faultedWith (.memoryFault 0xFF40 224))] = true := by decide +kernel

/-- The reads of the environment, from their rules in 45_ethereum_env.md, each with its own value. -/
theorem test_environment_scalars : allHold [
    becomes (start []) 0x82040000000 (put [(1, 0xAB)] ∘ next),
    becomes (start []) 0x83040000000 (put [(1, 5)] ∘ next),
    becomes (start []) 0x84040000000 (put [(1, 6)] ∘ next),
    becomes (start []) 0x85040000000 (put [(1, 7)] ∘ next),
    becomes (start []) 0x87040000000 (put [(1, 8)] ∘ next),
    becomes (start []) 0x88040000000 (put [(1, 9)] ∘ next),
    becomes (start []) 0x89040000000 (put [(1, 10)] ∘ next),
    becomes (start []) 0x8A040000000 (put [(1, 11)] ∘ next),
    becomes (start []) 0x8B040000000 (put [(1, 2)] ∘ next),
    becomes (start []) 0x8C040000000 (put [(1, 3)] ∘ next),
    becomes (start [(1, 0xAB)]) 0x81081000000 (put [(2, 500)] ∘ next),
    becomes (start [(1, 0xAB)]) 0x93081000000 (put [(2, 12)] ∘ next)] = true := by decide +kernel

/-- MFHI and MFLO after AR25; a branch that links from its own source register (R144); the logs R221, R223. -/
theorem test_more_vectors : allHold [
    becomes (hiLo ones (neg 3) (start [])) 0x17100000000 (put [(4, ones)] ∘ next),
    becomes (hiLo ones (neg 3) (start [])) 0x18140000000 (put [(5, neg 3)] ∘ next),
    becomes (start [(31, 5)]) 0x097C0000010 (put [(31, 0x10C)] ∘ jumpTo 0x144),
    becomes (start [(1, 0x40), (2, 1), (3, 7)] [(0x40, 1, 0xFE)]) 0xA00420C0000
      ((fun s => { s with log := [⟨[7], [0xFE]⟩] }) ∘ next),
    becomes (start [(1, 0x40), (2, 1), (3, 7), (4, 8), (5, 9)]) 0xA20420C4140
      ((fun s => { s with log := [⟨[7, 8, 9], [0]⟩] }) ∘ next),
    becomes (start [(1, 0x100)] [(0x1A0, 32, 0xFFF0), (0x1C0, 32, 32)]) 0x97081000000
      (·.faultedWith (.memoryFault 0xFFF0 32)),
    becomes (start [(1, 0x100)] [(0x160, 32, 0xFFFF), (0x180, 32, 2)]) 0x98081000000
      (·.faultedWith (.memoryFault 0xFFFF 2))] = true := by decide +kernel

/-- With `ZERO_REG`, register 0 reads as zero and a write of it is ignored (00_scope.md R2). -/
theorem test_zero_register : allHold [
    becomes { start [(2, 7)] with params := { resetParams with zeroReg := true } } 0x04000080000 next,
    becomes { start [(2, 7)] with params := { resetParams with zeroReg := true } } 0x040C0080000
      (put [(3, 7)] ∘ next)] = true := by decide +kernel

/-- A finite `CALLSTACK_MAX`: the push past it is CallStackOverflow (60_exceptions.md R301). -/
theorem test_call_stack_overflow : allHold [
    becomes { start [] with params := { resetParams with callstackMax := some 0 } } 0xAD000000040
      (·.faultedWith .callStackOverflow),
    becomes { start [] with params := { resetParams with callstackMax := some 1 } } 0xAD000000040
      ((fun s => { s with callstack := [0x104] }) ∘ jumpTo 0x40)] = true := by decide +kernel

/-! ### The assembler text (30_encoding.md R66, R71) -/

theorem test_asm :
    asmText (.addi 1 2 0xFFFFFF) = "addi $2, $1, -1" ∧ asmText (.lb 2 1 0xFFFFFF) = "lb $2, -1($1)" ∧
    asmText (.jumpv 1 3 2) = "jumpv 3, 2, $1" ∧ asmText (.beginsub 2 1) = "beginsub 2, 1" ∧
    asmText (.extcodecopy 1 2 3 4) = "extcodecopy $1, $4, $2, $3" ∧
    asmText (.checkproof 3 1 2 4 2) = "checkproof $3, 4, $1, 2, $2" ∧
    asmText (.checktemplate 3 1 2 0x3FFFF) = "checktemplate $3, $1, 262143, $2" := by decide

/-! ### Witnesses: each applies its statement to a concrete state and concrete operands and discharges every
hypothesis there, clause by clause, at the boundary of the clause -/

/-- The instruction completes: it answers a next state. -/
abbrev Completes (i : Instr) (s : State) : Prop := ∃ t, exec i s = .next t

/-- The instruction faults with this cause. -/
abbrev Faults (i : Instr) (s : State) (c : Cause) : Prop := exec i s = .next (s.faultedWith c)

/-- Forget what a next state holds. -/
theorem completes {i : Instr} {s : State} {p : State → Prop} (h : ∃ t, exec i s = .next t ∧ p t) :
    Completes i s :=
  h.imp fun _ a => a.1

/-- Forget what a next state and a value hold. -/
theorem completes_with {i : Instr} {s : State} {α : Type} {p : State → α → Prop}
    (h : ∃ (t : State) (v : α), exec i s = .next t ∧ p t v) : Completes i s :=
  h.imp fun _ a => a.choose_spec.1

theorem witness_CheckedArithmetic (h : Obligations.CheckedArithmetic) :
    Faults (.add 3 1 2) (start [(1, maxWord), (2, 1)]) .overflow ∧
    Faults (.add 3 1 2) (start [(1, minWord), (2, ones)]) .overflow ∧
    Completes (.add 3 1 2) (start [(1, maxWord), (2, 0)]) ∧
    Completes (.add 3 1 2) (start [(1, minWord), (2, 0)]) :=
  ⟨(h _ 3 1 2 0 _ _ _ _ List.mem_cons_self).2.1 (by decide +kernel),
    (h _ 3 1 2 0 _ _ _ _ List.mem_cons_self).2.1 (by decide +kernel),
    completes_with ((h _ 3 1 2 0 _ _ _ _ List.mem_cons_self).2.2 (by decide +kernel)),
    completes_with ((h _ 3 1 2 0 _ _ _ _ List.mem_cons_self).2.2 (by decide +kernel))⟩

theorem witness_WrappingArithmetic (h : Obligations.WrappingArithmetic) :
    Completes (.addiu 1 2 0xFFFFFF) (start [(1, minWord)]) :=
  completes_with (h _ 0 1 2 0xFFFFFF _ _ _ _ List.mem_cons_self).2

theorem witness_Division (h : Obligations.Division) :
    Faults (.div 1 2) (start [(1, 5)]) .divideByZero ∧
    (Completes (.div 1 2) (start [(1, minWord), (2, ones)]) ∧
      Completes (.divu 1 2) (start [(1, minWord), (2, ones)])) :=
  ⟨((h _ 1 2).2.2.1 (by decide +kernel)).1,
    have k := (h (start [(1, minWord), (2, ones)]) 1 2).2.2.2 (by decide +kernel)
    ⟨k.1.imp fun _ a => a.choose_spec.choose_spec.choose_spec.choose_spec.1,
      k.2.imp fun _ a => a.choose_spec.choose_spec.1⟩⟩

theorem witness_Logic (h : Obligations.Logic) : Completes (.and 3 1 2) (start [(1, ones)]) :=
  completes_with (h _ 3 1 2 0 _ _ _ _ _ List.mem_cons_self).2

theorem witness_Shifts (h : Obligations.Shifts) :
    Completes (.lui 1 0xFFFFFF) (start []) ∧ Completes (.sra 2 1 256) (start [(1, minWord)]) :=
  ⟨completes_with (h.1 _ 1 0 0 0xFFFFFF _ _ _ List.mem_cons_self).2,
    completes_with (h.2 _ 2 1 0 256 _ _ _ List.mem_cons_self).2⟩

theorem witness_SetOnLessThan (h : Obligations.SetOnLessThan) :
    (∃ t, exec (.slt 3 1 2) (start [(1, minWord), (2, maxWord)]) = .next t ∧
      Holds 3 1 (start [(1, minWord), (2, maxWord)]) t) ∧
    (∃ t, exec (.slt 3 1 2) (start [(1, 5), (2, 5)]) = .next t ∧
      Holds 3 0 (start [(1, 5), (2, 5)]) t) := by
  obtain ⟨t, v, e, w, h1, _⟩ :=
    (h (start [(1, minWord), (2, maxWord)]) 3 1 2 0 _ _ _ List.mem_cons_self).2
  obtain ⟨u, x, f, y, _, h2⟩ := (h (start [(1, 5), (2, 5)]) 3 1 2 0 _ _ _ List.mem_cons_self).2
  exact ⟨⟨t, e, h1 (by decide +kernel) ▸ w.result⟩, ⟨u, f, h2 (by decide +kernel) ▸ y.result⟩⟩

theorem witness_Branches (h : Obligations.Branches) :
    Completes (.beq 1 2 3) (start [(1, 9), (2, 9)]) ∧ Completes (.beq 1 2 3) (start [(1, 9)]) :=
  ⟨completes ((h _ 1 2 3 _ _ _ List.mem_cons_self).2.1 (by decide +kernel)),
    completes ((h _ 1 2 3 _ _ _ List.mem_cons_self).2.2 (by decide +kernel))⟩

theorem witness_LinkingBranches (h : Obligations.LinkingBranches) :
    Completes (.bgezal 1 16) (start [(1, 0)]) ∧ Completes (.bgezal 1 16) (start [(1, ones)]) :=
  ⟨completes_with ((h _ 1 16 _ _ _ List.mem_cons_self).2.1 (by decide +kernel)),
    completes ((h _ 1 16 _ _ _ List.mem_cons_self).2.2 (by decide +kernel))⟩

theorem witness_Loads (h : Obligations.Loads) :
    Faults (.lb 2 1 0) (start [(1, 0x10000)])
      (.memoryFault (effectiveAddress ((start [(1, 0x10000)]).reg 1) 0) 1) ∧
    Completes (.lb 2 1 0) (start [(1, 0xFFFF)]) ∧
    Faults (.lw 2 1 0) (start [(1, 0xFFE1)])
      (.memoryFault (effectiveAddress ((start [(1, 0xFFE1)]).reg 1) 0) 32) ∧
    Completes (.lw 2 1 0) (start [(1, 0xFFE0)]) :=
  ⟨(h _ 2 1 0).2.2.2.1 (by decide +kernel),
    completes_with ((h _ 2 1 0).2.2.2.2.1 (by decide +kernel)),
    (h _ 2 1 0).2.2.2.2.2.1 (by decide +kernel),
    completes_with ((h _ 2 1 0).2.2.2.2.2.2 (by decide +kernel))⟩

theorem witness_Stores (h : Obligations.Stores) :
    Faults (.sb 1 2 0) (start [(1, 0x10000)])
      (.memoryFault (effectiveAddress ((start [(1, 0x10000)]).reg 1) 0) 1) ∧
    Completes (.sb 1 2 0) (start [(1, 0xFFFF)]) ∧
    Faults (.sw 1 2 0) (start [(1, 0xFFE1)])
      (.memoryFault (effectiveAddress ((start [(1, 0xFFE1)]).reg 1) 0) 32) ∧
    Completes (.sw 1 2 0) (start [(1, 0xFFE0)]) :=
  ⟨(h _ 1 2 0).2.2.2.1 (by decide +kernel),
    completes_with ((h _ 1 2 0).2.2.2.2.1 (by decide +kernel)),
    (h _ 1 2 0).2.2.2.2.2.1 (by decide +kernel),
    completes_with ((h _ 1 2 0).2.2.2.2.2.2 (by decide +kernel))⟩

theorem witness_LoadAfterStore (h : Obligations.LoadAfterStore) :
    Completes (.sw 1 2 0) (start [(1, 0xFFE0), (2, 7)]) :=
  completes (h _ 3 1 2 1 0 31 (by decide +kernel) (by decide +kernel))

theorem witness_UnsignedModulo (h : Obligations.UnsignedModulo) :
    Faults (.mod 3 1 2) (start [(1, 17)]) .divideByZero ∧
    Completes (.mod 3 1 2) (start [(1, 17), (2, 1)]) :=
  ⟨(h _ 3 1 2 0 _ _ _ List.mem_cons_self).2.1 (by decide +kernel),
    ((h _ 3 1 2 0 _ _ _ List.mem_cons_self).2.2 (by decide +kernel)).imp
      fun _ a => a.choose_spec.choose_spec.1⟩

theorem witness_SignedModulo (h : Obligations.SignedModulo) :
    Faults (.smod 3 1 2) (start [(1, minWord)]) .divideByZero ∧
    Completes (.smod 3 1 2) (start [(1, minWord), (2, ones)]) :=
  ⟨(h _ 3 1 2 0 _ _ _ List.mem_cons_self).2.1 (by decide +kernel),
    ((h _ 3 1 2 0 _ _ _ List.mem_cons_self).2.2 (by decide +kernel)).imp
      fun _ a => a.choose_spec.choose_spec.choose_spec.choose_spec.1⟩

theorem witness_AddOrMultiplyThenModulo (h : Obligations.AddOrMultiplyThenModulo) :
    Faults (.addmod 4 1 2 3) (start [(1, maxWord), (2, 1)]) .overflow ∧
    Faults (.addmod 4 1 2 3) (start [(1, minWord), (2, ones)]) .overflow ∧
    Faults (.addmod 4 1 2 3) (start [(1, ones), (2, 1), (3, 7)]) .overflow ∧
    Faults (.addmod 4 1 2 3) (start [(1, minWord), (2, maxWord)]) .divideByZero ∧
    Completes (.addmod 4 1 2 3) (start [(1, minWord), (2, maxWord), (3, 1)]) ∧
    Faults (.mulmod 4 1 2 3) (start [(1, 3), (2, 4)]) .divideByZero ∧
    Completes (.mulmod 4 1 2 3) (start [(1, 3), (2, 4), (3, 1)]) :=
  ⟨(h.1 _ 4 1 2 3 _ _ _ rfl rfl rfl).2.1 (by decide +kernel),
    (h.1 _ 4 1 2 3 _ _ _ rfl rfl rfl).2.1 (by decide +kernel),
    (h.1 _ 4 1 2 3 _ _ _ rfl rfl rfl).2.1 (by decide +kernel),
    ((h.1 _ 4 1 2 3 _ _ _ rfl rfl rfl).2.2 (by decide +kernel) (by decide +kernel)
      (by decide +kernel)).1 (by decide +kernel),
    (((h.1 _ 4 1 2 3 _ _ _ rfl rfl rfl).2.2 (by decide +kernel) (by decide +kernel)
      (by decide +kernel)).2 (by decide +kernel)).imp fun _ a => a.choose_spec.choose_spec.1,
    (h.2 _ 4 1 2 3 _ _ rfl rfl).2.1 (by decide +kernel),
    ((h.2 _ 4 1 2 3 _ _ rfl rfl).2.2 (by decide +kernel)).imp
      fun _ a => a.choose_spec.choose_spec.1⟩

theorem witness_Exponentiation (h : Obligations.Exponentiation) :
    Completes (.exp 3 1 2) (start [(1, 3), (2, ones)]) :=
  completes_with (h _ 3 1 2 0 _ _ _ List.mem_cons_self).2

theorem witness_EnvironmentScalars (h : Obligations.EnvironmentScalars) :
    Completes (.gas 1) (start []) :=
  completes (h _ 1 _ _ _ List.mem_cons_self).2

theorem witness_EnvironmentLookups (h : Obligations.EnvironmentLookups) :
    Completes (.balance 2 1) (start [(1, 0xAB)]) :=
  completes (h _ 2 1 _ _ _ List.mem_cons_self).2

theorem witness_BlockHashAndCallDataLoad (h : Obligations.BlockHashAndCallDataLoad) :
    Faults (.blockhash 2 1) (start [(1, 0xFFF9)]) (.memoryFault ((start [(1, 0xFFF9)]).reg 1).toNat 8) ∧
    Completes (.blockhash 2 1) (start [(1, 0xFFF8)]) ∧
    Faults (.calldataload 2 1) (start [(1, 5)]) (.envRangeFault ((start [(1, 5)]).reg 1).toNat 32) ∧
    Completes (.calldataload 2 1) (start [(1, 4)]) :=
  ⟨(h.1 _ 2 1).2.1 (by decide +kernel), completes ((h.1 _ 2 1).2.2 (by decide +kernel)),
    (h.2 _ 2 1).2.1 (by decide +kernel), completes_with ((h.2 _ 2 1).2.2 (by decide +kernel))⟩

theorem witness_CopiesToMemory (h : Obligations.CopiesToMemory) :
    Faults (.calldatacopy 1 2 3) (start [(1, 0), (2, 33), (3, 4)])
      (.envRangeFault ((start [(1, 0), (2, 33), (3, 4)]).reg 2).toNat
        ((start [(1, 0), (2, 33), (3, 4)]).reg 3).toNat) ∧
    Faults (.calldatacopy 1 2 3) (start [(1, 0xFFFD), (2, 32), (3, 4)])
      (.memoryFault ((start [(1, 0xFFFD), (2, 32), (3, 4)]).reg 1).toNat
        ((start [(1, 0xFFFD), (2, 32), (3, 4)]).reg 3).toNat) ∧
    Completes (.calldatacopy 1 2 3) (start [(1, 0xFFFC), (2, 32), (3, 4)]) ∧
    Completes (.calldatacopy 1 2 3) (start [(1, ones), (2, ones)]) :=
  ⟨(h _ 1 2 3 0 _ _ _ _ _ _ rfl rfl rfl List.mem_cons_self).2.1 (by decide +kernel)
      (by decide +kernel),
    (h _ 1 2 3 0 _ _ _ _ _ _ rfl rfl rfl List.mem_cons_self).2.2.1 (by decide +kernel)
      (by decide +kernel) (by decide +kernel),
    completes_with ((h _ 1 2 3 0 _ _ _ _ _ _ rfl rfl rfl List.mem_cons_self).2.2.2
      (by decide +kernel)),
    completes_with ((h _ 1 2 3 0 _ _ _ _ _ _ rfl rfl rfl List.mem_cons_self).2.2.2
      (by decide +kernel))⟩

/-- The seven words of a call at 0xFF20, the last place that fits: input `n` bytes at `a`, output `k` at `b`. -/
def callAt (a n b k : Nat) : State :=
  start [(1, 0xFF20)] [(0xFF80, 32, a), (0xFFA0, 32, n), (0xFFC0, 32, b), (0xFFE0, 32, k)]

theorem witness_MessageCalls (h : Obligations.MessageCalls) :
    Faults (.call 2 1) (start [(1, 0xFF21)]) (.memoryFault ((start [(1, 0xFF21)]).reg 1).toNat 224) ∧
    (∃ c, Faults (.call 2 1) (callAt 0xFFFF 2 0 0) c) ∧
    (∃ c, Faults (.call 2 1) (callAt 0xFFFF 1 0xFFFF 2) c) ∧
    Completes (.call 2 1) (callAt 0xFFFF 1 0xFFFF 1) :=
  ⟨(h _ 2 1 _ _ _ _ _ _ _ _ _ List.mem_cons_self rfl rfl rfl rfl rfl rfl).2.1 (by decide +kernel),
    ⟨_, (h _ 2 1 _ _ _ _ _ _ _ _ _ List.mem_cons_self rfl rfl rfl rfl rfl rfl).2.2.1
      (by decide +kernel) (by unfold State.Fits; decide +kernel)⟩,
    ⟨_, (h _ 2 1 _ _ _ _ _ _ _ _ _ List.mem_cons_self rfl rfl rfl rfl rfl rfl).2.2.2.1
      (by decide +kernel) (by unfold State.Fits; decide +kernel)
      (by unfold State.Fits; decide +kernel)⟩,
    completes ((h _ 2 1 _ _ _ _ _ _ _ _ _ List.mem_cons_self rfl rfl rfl rfl rfl rfl).2.2.2.2
      (by decide +kernel) (by unfold State.Fits; decide +kernel)
      (by unfold State.Fits; decide +kernel))⟩

theorem witness_OpenCalls (h : Obligations.OpenCalls) :
    Completes (.delegatecall 2 1) (start [(1, 7)]) :=
  completes (h _ 2 1 _ _ _ _ List.mem_cons_self rfl).2

theorem witness_Create2 (h : Obligations.Create2) :
    Completes (.create2 5 1 2 3 4) (start [(1, 7)]) :=
  completes (h _ 5 1 2 3 4 _ rfl).2

theorem witness_ReturnAndRevert (h : Obligations.ReturnAndRevert) :
    (∃ c, Faults (.ret 1 2) (start [(1, 0xFFFF), (2, 2)]) c) ∧
    Completes (.ret 1 2) (start [(1, 0xFFFF), (2, 1)]) ∧ Completes (.ret 1 2) (start [(1, ones)]) :=
  ⟨⟨_, (h _ 1 2 _ _ _ _ _ List.mem_cons_self rfl rfl).2.1 (by unfold State.Fits; decide +kernel)⟩,
    completes ((h _ 1 2 _ _ _ _ _ List.mem_cons_self rfl rfl).2.2
      (by unfold State.Fits; decide +kernel)),
    completes ((h _ 1 2 _ _ _ _ _ List.mem_cons_self rfl rfl).2.2
      (by unfold State.Fits; decide +kernel))⟩

theorem witness_KeccakHash (h : Obligations.KeccakHash) :
    Faults (.keccak 3 1 2) (start [(1, 0x40), (2, 0x40)]) .invalidRange ∧
    (∃ c, Faults (.keccak 3 1 2) (start [(1, 0xFFFF), (2, 0x10001)]) c) ∧
    Completes (.keccak 3 1 2) (start [(1, 0xFFFF), (2, 0x10000)]) :=
  ⟨(h _ 3 1 2 _ _ rfl rfl).2.1 (by decide +kernel),
    ⟨_, (h _ 3 1 2 _ _ rfl rfl).2.2.1 (by decide +kernel) (by decide +kernel)⟩,
    completes ((h _ 3 1 2 _ _ rfl rfl).2.2.2 (by decide +kernel) (by decide +kernel))⟩

theorem witness_Logs (h : Obligations.Logs) :
    (∃ c, Faults (.log0 1 2) (start [(1, 0xFFFF), (2, 2)]) c) ∧
    Completes (.log0 1 2) (start [(1, 0xFFFF), (2, 1)]) :=
  ⟨⟨_, (h _ 1 2 0 0 0 0 _ _ _ _ _ List.mem_cons_self rfl rfl).2.1
      (by unfold State.Fits; decide +kernel)⟩,
    completes ((h _ 1 2 0 0 0 0 _ _ _ _ _ List.mem_cons_self rfl rfl).2.2
      (by unfold State.Fits; decide +kernel))⟩

theorem witness_StaticJumpsAndTable (h : Obligations.StaticJumpsAndTable) :
    Completes (.jumpto 0x40) (start []) ∧
    Completes (.jumpif 0x40) { start [] with compare := true } ∧
    Completes (.jumpif 0x40) (start []) ∧
    Faults (.jumpv 1 0 0) (start [(1, 0)]) (.dataRangeFault (-1)) ∧
    Faults (.jumpv 1 3 3) (start [(1, 2)]) (.dataRangeFault 5) ∧
    Completes (.jumpv 1 3 2) (start [(1, 3)]) ∧ Completes (.jumpv 1 3 0) (start [(1, 0)]) :=
  ⟨completes (h.1 _ 0x40 0x40 rfl).2.2.1, completes ((h.1 _ 0x40 0x40 rfl).2.2.2.1 rfl),
    completes ((h.1 _ 0x40 0x40 rfl).2.2.2.2 (by decide +kernel)),
    (h.2 _ 1 0 0 (-1) (by decide +kernel)).2.1 (by decide +kernel),
    (h.2 _ 1 3 3 5 (by decide +kernel)).2.1 (by decide +kernel),
    completes ((h.2 _ 1 3 2 4 (by decide +kernel)).2.2 0x240 (by decide) (by decide +kernel)),
    completes ((h.2 _ 1 3 0 0 (by decide +kernel)).2.2 0x200 (by decide) (by decide +kernel))⟩

/-- The start with a finite `CALLSTACK_MAX` and a call stack. -/
def deep (limit : Nat) (stack : List CodeAddr) : State :=
  { start [(1, 3)] with params := { resetParams with callstackMax := some limit }, callstack := stack }

theorem witness_SubroutineCallsAndReturn (h : Obligations.SubroutineCallsAndReturn) :
    Faults (.jumpsubv 1 3 3) (deep 1 []) (.dataRangeFault 5) ∧
    Faults (.jumpsubv 1 3 2) (deep 1 [0x200]) .callStackOverflow ∧
    Completes (.jumpsubv 1 3 2) (deep 1 []) ∧
    Completes (.jumpsub 0x40) (start []) ∧
    Faults .returnsub (start []) .callStackUnderflow ∧ Completes .returnsub (deep 1 [0x200]) :=
  ⟨(h.1 _ 1 3 3 0 5 _ _ _ (by decide +kernel) (.tail _ List.mem_cons_self)).2.1 (by decide +kernel),
    (h.1 _ 1 3 2 0 4 _ _ _ (by decide +kernel) (.tail _ List.mem_cons_self)).2.2.1 0x240 1
      (by decide +kernel) rfl (by decide),
    completes ((h.1 _ 1 3 2 0 4 _ _ _ (by decide +kernel) (.tail _ List.mem_cons_self)).2.2.2 0x240
      (by decide +kernel) fun m e => by cases e; decide),
    completes ((h.1 _ 1 3 2 0x40 2 _ _ _ (by decide +kernel) List.mem_cons_self).2.2.2 _ rfl
      fun m e => nomatch (show (none : Option Nat) = some m from e)),
    (h.2 _).2.1 (by decide +kernel), completes ((h.2 _).2.2 0x200 [] rfl)⟩

theorem witness_Locals (h : Obligations.Locals) :
    (∃ c, Faults (.getlocal 2 0) { start [] with marker := 0xFFE1 } c) ∧
    Completes (.getlocal 2 0) { start [] with marker := 0xFFE0 } ∧
    Completes (.putlocal 2 0) { start [] with marker := 0xFFE0 } :=
  ⟨⟨_, ((h _ 2 0).2.2.2.1 (by decide +kernel)).1⟩,
    completes_with ((h _ 2 0).2.2.2.2 (by decide +kernel)).1,
    completes_with ((h _ 2 0).2.2.2.2 (by decide +kernel)).2⟩

/-! The SIMD statements, with context 1 (four lanes of 64 bits) and context 2 (undefined). -/

/-- Three addresses, and the lanes of the vector at the second one. -/
def vectors (d a b : Nat) (lanes : List (Nat × Nat × Nat) := []) : State :=
  start [(3, d), (1, a), (2, b)] lanes

theorem shape_1 (d a b : Nat) : (vectors d a b).HasShape 1 ⟨64, 4⟩ := by
  refine ⟨rfl, ?_⟩; decide

theorem no_shape_2 (d a b : Nat) (sh : SimdShape) : ¬(vectors d a b).HasShape 2 sh :=
  fun h => nomatch (show (none : Option SimdShape) = some sh from h.1)

theorem witness_SimdPairwise (h : Obligations.SimdPairwise) :
    Faults (.simdadd 2 3 1 2) (vectors 0 0 0) .simdFault ∧
    (∃ c, Faults (.simdadd 1 3 1 2) (vectors 0 0xFFE1 0) c) ∧
    (∃ c, Faults (.simdadd 1 3 1 2) (vectors 0 0xFFE0 0xFFE1) c) ∧
    (∃ c, Faults (.simdadd 1 3 1 2) (vectors 0xFFE1 0xFFE0 0xFFE0) c) ∧
    Completes (.simdadd 1 3 1 2) (vectors 0xFFE0 0xFFE0 0xFFE0) :=
  ⟨(h _ 2 3 1 2 _ _ _ List.mem_cons_self).2.1 (no_shape_2 _ _ _),
    ⟨_, ((h _ 1 3 1 2 _ _ _ List.mem_cons_self).2.2 _ _ _ _ _ (shape_1 _ _ _) rfl rfl rfl rfl).1
      (by decide +kernel)⟩,
    ⟨_, ((h _ 1 3 1 2 _ _ _ List.mem_cons_self).2.2 _ _ _ _ _ (shape_1 _ _ _) rfl rfl rfl rfl).2.1
      (by decide +kernel) (by decide +kernel)⟩,
    ⟨_, ((h _ 1 3 1 2 _ _ _ List.mem_cons_self).2.2 _ _ _ _ _ (shape_1 _ _ _) rfl rfl rfl rfl).2.2.1
      (by decide +kernel) (by decide +kernel) (by decide +kernel)⟩,
    completes (((h _ 1 3 1 2 _ _ _ List.mem_cons_self).2.2 _ _ _ _ _ (shape_1 _ _ _)
      rfl rfl rfl rfl).2.2.2 (by decide +kernel) (by decide +kernel) (by decide +kernel))⟩

theorem witness_SimdShifts (h : Obligations.SimdShifts) :
    Faults (.simdshl 2 3 1 2) (vectors 0 0 0) .simdFault ∧
    (∃ c, Faults (.simdshl 1 3 1 2) (vectors 0 0xFFE1 0) c) ∧
    (∃ c, Faults (.simdshl 1 3 1 2) (vectors 0 0xFFE0 0xFFE1) c) ∧
    (∃ c, Faults (.simdshl 1 3 1 2) (vectors 0xFFE1 0xFFE0 0xFFE0) c) ∧
    Completes (.simdshl 1 3 1 2) (vectors 0xFFE0 0xFFE0 0xFFE0) :=
  ⟨(h _ 2 3 1 2 _ _ _ List.mem_cons_self).2.1 (no_shape_2 _ _ _),
    ⟨_, ((h _ 1 3 1 2 _ _ _ List.mem_cons_self).2.2 _ _ _ _ _ (shape_1 _ _ _) rfl rfl rfl rfl).1
      (by decide +kernel)⟩,
    ⟨_, ((h _ 1 3 1 2 _ _ _ List.mem_cons_self).2.2 _ _ _ _ _ (shape_1 _ _ _) rfl rfl rfl rfl).2.1
      (by decide +kernel) (by decide +kernel)⟩,
    ⟨_, ((h _ 1 3 1 2 _ _ _ List.mem_cons_self).2.2 _ _ _ _ _ (shape_1 _ _ _) rfl rfl rfl rfl).2.2.1
      (by decide +kernel) (by decide +kernel) (by decide +kernel)⟩,
    completes (((h _ 1 3 1 2 _ _ _ List.mem_cons_self).2.2 _ _ _ _ _ (shape_1 _ _ _)
      rfl rfl rfl rfl).2.2.2 (by decide +kernel) (by decide +kernel) (by decide +kernel))⟩

/-- Context 1 with a divisor vector whose lanes are 1, 1, 1 and the given number. -/
def divisors (d last : Nat) : State :=
  start [(3, d), (1, 0x100), (2, 0x120)] [(0x127, 1, 1), (0x12F, 1, 1), (0x137, 1, 1), (0x13F, 1, last)]

theorem shape_divisors (d last : Nat) : (divisors d last).HasShape 1 ⟨64, 4⟩ := by
  refine ⟨rfl, ?_⟩; decide

theorem witness_SimdDivision (h : Obligations.SimdDivision) :
    Faults (.simddiv 2 3 1 2) (vectors 0 0 0) .simdFault ∧
    (∃ c, Faults (.simddiv 1 3 1 2) (vectors 0 0xFFE1 0) c) ∧
    (∃ c, Faults (.simddiv 1 3 1 2) (vectors 0 0xFFE0 0xFFE1) c) ∧
    Faults (.simddiv 1 3 1 2) (divisors 0 0) .divideByZero ∧
    (∃ c, Faults (.simddiv 1 3 1 2) (divisors 0xFFE1 1) c) ∧
    Completes (.simddiv 1 3 1 2) (divisors 0xFFE0 1) :=
  ⟨(h _ 2 3 1 2 _ _ _ List.mem_cons_self).2.1 (no_shape_2 _ _ _),
    ⟨_, ((h _ 1 3 1 2 _ _ _ List.mem_cons_self).2.2 _ _ _ _ _ (shape_1 _ _ _) rfl rfl rfl rfl).1
      (by decide +kernel)⟩,
    ⟨_, ((h _ 1 3 1 2 _ _ _ List.mem_cons_self).2.2 _ _ _ _ _ (shape_1 _ _ _) rfl rfl rfl rfl).2.1
      (by decide +kernel) (by decide +kernel)⟩,
    (((h _ 1 3 1 2 _ _ _ List.mem_cons_self).2.2 _ _ _ _ _ (shape_divisors _ _)
      rfl rfl rfl rfl).2.2 (by decide +kernel) (by decide +kernel)).1
      ⟨3, by decide, by decide +kernel⟩,
    ⟨_, (((h _ 1 3 1 2 _ _ _ List.mem_cons_self).2.2 _ _ _ _ _ (shape_divisors _ _)
      rfl rfl rfl rfl).2.2 (by decide +kernel) (by decide +kernel)).2.1 (by decide +kernel)
      (by decide +kernel)⟩,
    completes ((((h _ 1 3 1 2 _ _ _ List.mem_cons_self).2.2 _ _ _ _ _ (shape_divisors _ _)
      rfl rfl rfl rfl).2.2 (by decide +kernel) (by decide +kernel)).2.2 (by decide +kernel)
      (by decide +kernel))⟩

theorem witness_SimdUnary (h : Obligations.SimdUnary) :
    Faults (.simdiszero 2 3 1 2) (vectors 0 0 0) .simdFault ∧
    (∃ c, Faults (.simdiszero 1 3 1 2) (vectors 0 0xFFE1 0) c) ∧
    (∃ c, Faults (.simdiszero 1 3 1 2) (vectors 0xFFE1 0xFFE0 0) c) ∧
    Completes (.simdiszero 1 3 1 2) (vectors 0xFFE0 0xFFE0 ones) :=
  ⟨(h _ 2 3 1 2 _ _ _ List.mem_cons_self).2.1 (no_shape_2 _ _ _),
    ⟨_, ((h _ 1 3 1 2 _ _ _ List.mem_cons_self).2.2 _ _ _ _ (shape_1 _ _ _) rfl rfl rfl).1
      (by decide +kernel)⟩,
    ⟨_, ((h _ 1 3 1 2 _ _ _ List.mem_cons_self).2.2 _ _ _ _ (shape_1 _ _ _) rfl rfl rfl).2.1
      (by decide +kernel) (by decide +kernel)⟩,
    completes (((h _ 1 3 1 2 _ _ _ List.mem_cons_self).2.2 _ _ _ _ (shape_1 _ _ _) rfl rfl rfl).2.2
      (by decide +kernel) (by decide +kernel))⟩

theorem witness_SimdIndex (h : Obligations.SimdIndex) :
    Faults (.simdindex 2 3 1 0) (vectors 0 0 0) .simdFault ∧
    Faults (.simdindex 1 3 1 4) (vectors 0 0 0) .simdFault ∧
    (∃ c, Faults (.simdindex 1 3 1 3) (vectors 0 0xFFE1 0) c) ∧
    Completes (.simdindex 1 3 1 3) (vectors 0 0xFFE0 0) :=
  ⟨(h _ 2 0 3 1).2.1 (no_shape_2 _ _ _),
    ((h _ 1 4 3 1).2.2 _ _ (shape_1 _ _ _) rfl).1 (by decide),
    ⟨_, ((h _ 1 3 3 1).2.2 _ _ (shape_1 _ _ _) rfl).2.1 (by decide) (by decide +kernel)⟩,
    completes_with (((h _ 1 3 3 1).2.2 _ _ (shape_1 _ _ _) rfl).2.2 (by decide) (by decide +kernel))⟩

theorem witness_SimdShuffle (h : Obligations.SimdShuffle) :
    Faults (.simdshuffle 2 3 1 2) (vectors 0 0 0) .simdFault ∧
    (∃ c, Faults (.simdshuffle 1 3 1 2) (vectors 0 0xFFE1 0) c) ∧
    (∃ c, Faults (.simdshuffle 1 3 1 2) (vectors 0 0xFFE0 0xFFE1) c) ∧
    Faults (.simdshuffle 1 3 1 2) (divisors 0 4) .simdFault ∧
    (∃ c, Faults (.simdshuffle 1 3 1 2) (divisors 0xFFE1 3) c) ∧
    Completes (.simdshuffle 1 3 1 2) (divisors 0xFFE0 3) :=
  ⟨(h _ 2 3 1 2).2.1 (no_shape_2 _ _ _),
    ⟨_, ((h _ 1 3 1 2).2.2 _ _ _ _ _ (shape_1 _ _ _) rfl rfl rfl rfl).1 (by decide +kernel)⟩,
    ⟨_, ((h _ 1 3 1 2).2.2 _ _ _ _ _ (shape_1 _ _ _) rfl rfl rfl rfl).2.1 (by decide +kernel)
      (by decide +kernel)⟩,
    (((h _ 1 3 1 2).2.2 _ _ _ _ _ (shape_divisors _ _) rfl rfl rfl rfl).2.2 (by decide +kernel)
      (by decide +kernel)).1 ⟨3, by decide, by decide +kernel⟩,
    ⟨_, (((h _ 1 3 1 2).2.2 _ _ _ _ _ (shape_divisors _ _) rfl rfl rfl rfl).2.2 (by decide +kernel)
      (by decide +kernel)).2.1 (by decide +kernel) (by decide +kernel)⟩,
    completes ((((h _ 1 3 1 2).2.2 _ _ _ _ _ (shape_divisors _ _) rfl rfl rfl rfl).2.2
      (by decide +kernel) (by decide +kernel)).2.2 (by decide +kernel) (by decide +kernel))⟩

theorem witness_CheckProofAndTemplate (h : Obligations.CheckProofAndTemplate) :
    (∃ c, Faults (.checkproof 3 1 2 7 7) (start [(1, 0xFF21)]) c) ∧
    Completes (.checkproof 3 1 2 7 7) (start [(1, 0xFF20)]) ∧
    Completes (.checkproof 3 1 2 0 0) (start [(1, ones)]) ∧
    (∃ t, exec (.checktemplate 3 1 2 0) (start [(1, ones)]) = .next t ∧
      Holds 3 1 (start [(1, ones)]) t) ∧
    (∃ t, exec (.checktemplate 3 1 2 0) (start [(1, minWord), (2, minWord)]) = .next t ∧
      Holds 3 0 (start [(1, minWord), (2, minWord)]) t) := by
  obtain ⟨t, v, e, w, h1, _⟩ := (h.2 (start [(1, ones)]) 3 1 2 0).2
  obtain ⟨u, x, f, y, _, h2⟩ := (h.2 (start [(1, minWord), (2, minWord)]) 3 1 2 0).2
  exact ⟨⟨_, (h.1 _ 3 1 2 7 7 _ rfl).2.1 (by unfold State.Fits; decide +kernel)⟩,
    completes ((h.1 _ 3 1 2 7 7 _ rfl).2.2 (by unfold State.Fits; decide +kernel)),
    completes ((h.1 _ 3 1 2 0 0 _ rfl).2.2 (by unfold State.Fits; decide +kernel)),
    ⟨t, e, h1 (by decide +kernel) ▸ w.result⟩,
    ⟨u, f, h2 ⟨255, by decide, by decide +kernel, by decide +kernel⟩ ▸ y.result⟩⟩

theorem witness_EncodeDecode (h : Obligations.EncodeDecode) : encode (.add 3 1 2) = 0x010C1080000 :=
  h _ _ (by decide)

/-- A state that fetches the pattern: after reset, with the pattern placed. -/
def loaded (w : Nat) : State := State.reset.withFetchWord 44 w

theorem witness_UnassignedOpcodes (h : Obligations.UnassignedOpcodes) :
    step (loaded 0x37000000000) =
      .next ((loaded 0x37000000000).faultedWith (.illegalInstruction 0x37000000000)) :=
  (h _ _ _ rfl).2 (by decide) rfl rfl

theorem witness_ReservedPatterns (h : Obligations.ReservedPatterns) (d : Obligations.DecodeEncode) :
    step (loaded 0x1B000000001) = .refused .reservedPattern := by
  refine (h _ 0x1B000000001 ⟨.noop, by decide⟩ fun i e => ?_).2 rfl rfl
  have k := d i
  rw [e, show decode 0x1B000000001 = .error .reservedSlots by decide] at k
  cases k

theorem witness_StepRunsDecoded (h : Obligations.StepRunsDecoded) :
    step (loaded 0x1B000000000) = exec .noop (loaded 0x1B000000000) :=
  h _ 0x1B000000000 _ rfl rfl (by decide)

theorem witness_StepWithoutInstruction (h : Obligations.StepWithoutInstruction) :
    step State.reset = .next (State.reset.faultedWith .fetchFault) ∧
    (go 0x102 0x106 State.reset).fetch = none ∧
    (loaded 0x1B000000000).fetch = (loaded 0x1B000000000).program.lookup 0 ∧
    step (State.reset.halt .stopped) = .fault .notRunning :=
  ⟨(h.1 _).2.2 rfl rfl, (h.1 _).2.1 (by decide), (h.1 _).1 rfl, h.2 _ (by decide)⟩

/-- One step of a loaded NOOP, for the statements about a step that answers a next state. -/
theorem step_noop : step (loaded 0x1B000000000) = .next (loaded 0x1B000000000).advance := rfl

theorem witness_StepKeepsInv (h : Obligations.StepKeepsInv) : (loaded 0x1B000000000).advance.Inv :=
  h _ _ ⟨rfl, rfl, (fun n e => nomatch (show (none : Option Nat) = some n from e)), rfl⟩ step_noop

theorem witness_FaultsArePrecise (h : Obligations.FaultsArePrecise) :
    step (State.reset.faultedWith .fetchFault) = .fault .notRunning :=
  (h State.reset _ _ rfl rfl).2

theorem witness_ReadOnlyState (h : Obligations.ReadOnlyState) :
    (loaded 0x1B000000000).advance.env = (loaded 0x1B000000000).env :=
  (h _ _ step_noop).2.2 fun w i e k => by
    obtain rfl : w = 0x1B000000000 := (Option.some.inj e).symm
    obtain rfl : Instr.noop = i := Except.ok.inj ((show decode 0x1B000000000 = Except.ok Instr.noop by decide) ▸ k)
    refine ⟨?_, ?_, ?_, ?_, ?_⟩ <;> intros <;> exact Instr.noConfusion

theorem witness_CountersMove (h : Obligations.CountersMove) :
    (loaded 0x1B000000000).advance.runState = .running →
      (loaded 0x1B000000000).advance.pc = (loaded 0x1B000000000).npc :=
  fun k => (h _ _ step_noop).elim And.right fun a => absurd k a.1

theorem witness_MemoryWriters (h : Obligations.MemoryWriters) :
    SameMemory (start []) (start []).advance :=
  h .noop _ _ 0x1B rfl (by decide) (by decide) (by decide)

theorem witness_RegisterAndListWriters (h : Obligations.RegisterAndListWriters) :
    SameHiLo (start []) (start []).advance ∧ (start []).advance.log = (start []).log :=
  have k := h .noop (start []) _ 0x1B rfl (by decide)
  ⟨k.1 (by decide), k.2.2.2.1 (by decide)⟩

/-- A launch record that gives a register, each special register, the flag and a byte of memory. -/
def sampleRecord : LaunchRecord :=
  { regs := [(5, 7)], hi := some 1, lo := some 2, compare := some true, marker := some 3,
    mem0 := [(0xFFFF, 4)] }

/-- A launch record with `ZERO_REG` true that gives registers 0 and 1. -/
def zeroRecord : LaunchRecord :=
  { regs := [(0, 7), (1, 8)], params := { resetParams with zeroReg := true } }

theorem witness_LaunchValues (h : Obligations.LaunchValues) :
    sampleRecord.launch.reg 5 = 7 ∧ sampleRecord.launch.hi = 1 ∧
    sampleRecord.launch.lo = 2 ∧ sampleRecord.launch.compare = true ∧
    sampleRecord.launch.marker = 3 ∧
    sampleRecord.launch.byte 0xFFFF = (sampleRecord.mem0.reverse.lookup 0xFFFF).getD 0 ∧
    zeroRecord.launch.reg 1 = 8 ∧ zeroRecord.launch.reg 0 = 0 := by
  obtain ⟨_, _, _, _, _, _, _, _, _, _, _, a, _, b, c, d, e, f, _⟩ := h sampleRecord
  obtain ⟨_, _, _, _, _, _, _, _, _, _, _, g, z, _⟩ := h zeroRecord
  exact ⟨a 5 7 rfl (.inl rfl), b _ rfl, c _ rfl, d _ rfl, e _ rfl, f _ (by decide),
    g 1 8 rfl (.inr (by decide)), z rfl⟩

/-- The start with `ZERO_REG` true. -/
def zeroed : State := { start [] with params := { resetParams with zeroReg := true } }

theorem witness_RegisterFile (h : Obligations.RegisterFile) :
    ((start []).setReg 0 5).reg 0 = 5 ∧ ((start []).setReg 63 5).reg 63 = 5 ∧
    ((start []).setReg 63 5).reg 0 = (start []).reg 0 ∧
    zeroed.reg 0 = 0 ∧ zeroed.setReg 0 5 = zeroed :=
  ⟨(h _ 0 0 5).1 rfl, (h _ 63 0 5).2.1 (by decide), (h _ 63 0 5).2.2.1 (by decide),
    (h zeroed 0 0 5).2.2.2 rfl⟩

theorem witness_DataMemory (h : Obligations.DataMemory) :
    (start []).memRead 0xFFFF 2 = .error (.memoryFault 0xFFFF 2) ∧
    (start []).memRead 0xFFFF 1 = .ok ((start []).bytesAt 0xFFFF 1) ∧
    (start []).memWrite 0xFFFF [1, 2] = .error (.memoryFault 0xFFFF 2) ∧
    (∃ t, (start []).memWrite 0xFFFF [1] = .ok t) :=
  ⟨(h.1 _ 0xFFFF 2).2.1 (by decide) (by decide), (h.1 _ 0xFFFF 1).2.2 (by decide) (by decide),
    (h.2 _ 0xFFFF [1, 2]).2.1 (by decide) (by decide),
    ((h.2 _ 0xFFFF [1]).2.2 (by decide) (by decide)).imp fun _ a => a.1⟩

/-- A program of two instructions, at 0x40 and 0x44. -/
def twoWords (pc : Nat) : State :=
  go pc (pc + 4) { State.reset with program := [(0x40, 0x1B000000000), (0x44, 0)] }

theorem witness_FetchDomain (h : Obligations.FetchDomain) :
    (twoWords 0x40).fetch = some 0x1B000000000 ∧ (twoWords 0x44).fetch = some 0 ∧
    (twoWords 0x3C).fetch = none ∧ (twoWords 0x42).fetch = none ∧ (twoWords 0x48).fetch = none ∧
    (twoWords 0x40).advance.program = (twoWords 0x40).program :=
  ⟨(h (twoWords 0x40) 0x40 (by decide)).1 0 (by decide) rfl,
    (h (twoWords 0x44) 0x40 (by decide)).1 1 (by decide) rfl,
    (h (twoWords 0x3C) 0x40 (by decide)).2.1 (by decide),
    (h (twoWords 0x42) 0x40 (by decide)).2.1 (by decide),
    (h (twoWords 0x48) 0x40 (by decide)).2.1 (by decide),
    (h (twoWords 0x40) 0x40 (by decide)).2.2 _ rfl⟩
end Sys2Proof.Tests
end

/-! Data memory (20_memory.md R41, R42): the range check, then `MemRead` and `MemWrite` on either side of it. -/

namespace Sys2Proof.Machine

/-- A range fails the check of R41 and R42 exactly when it has a byte and ends past the memory. -/
theorem State.not_fits_iff (s : State) (addr n : Nat) :
    ¬s.Fits addr n ↔ 0 < n ∧ s.params.memSize < addr + n := by
  rw [State.Fits, not_or, Nat.pos_iff_ne_zero, Nat.not_le]

/-- A count of 0 passes the check at any address, past the end of memory too. -/
theorem State.fits_zero (s : State) (addr : Nat) : s.Fits addr 0 := .inl rfl

/-- A read of a range that fits gives the bytes in address order. -/
theorem memRead_eq_bytesAt (s : State) (addr n : Nat) (h : s.Fits addr n) :
    s.memRead addr n = .ok (s.bytesAt addr n) := by
  rw [memRead_of_fits s addr n h, bytesAt_eq]

theorem memRead_zero (s : State) (addr : Nat) : s.memRead addr 0 = .ok [] :=
  memRead_of_fits s addr 0 (s.fits_zero addr)

theorem memWrite_nil (s : State) (addr : Nat) : s.memWrite addr [] = .ok s :=
  memWrite_of_fits s addr [] (s.fits_zero addr)

/-- A write of a range that fits: its own bytes, the frame outside the range, and memory as the only field changed. -/
theorem memWrite_stores (s : State) (addr : Nat) (bytes : List Byte) (h : s.Fits addr bytes.length) :
    ∃ t : State, s.memWrite addr bytes = .ok t ∧
      (∀ k (hk : k < bytes.length), t.byte (addr + k) = bytes[k]) ∧
      SameMemoryOutside addr bytes.length s t ∧ { t with mem := s.mem } = s :=
  ⟨{ s with mem := Memory.writeBytes s.mem addr bytes }, memWrite_of_fits s addr bytes h,
    fun k hk => Memory.read_writeBytes_inside s.mem addr k bytes hk,
    fun a ha => Memory.read_writeBytes_outside s.mem addr a bytes ha, rfl⟩

/-- Settles O57: for `MemRead` and for `MemWrite`, the count of 0, the range past the end and the range inside. -/
theorem dataMemory : Obligations.DataMemory := by
  unfold Obligations.DataMemory
  constructor
  · intro s addr n
    refine ⟨memRead_zero s addr, fun hn hend => ?past, fun _ hfit => ?inside⟩
    case past => exact memRead_of_not_fits s addr n ((s.not_fits_iff addr n).mpr ⟨hn, hend⟩)
    case inside => exact memRead_eq_bytesAt s addr n (.inr hfit)
  · intro s addr bytes
    refine ⟨memWrite_nil s addr, fun hn hend => ?past, fun _ hfit => ?inside⟩
    case past =>
      exact memWrite_of_not_fits s addr bytes ((s.not_fits_iff addr bytes.length).mpr ⟨hn, hend⟩)
    case inside => exact memWrite_stores s addr bytes (.inr hfit)

end Sys2Proof.Machine

/-! Unassigned opcodes (30_encoding.md R67): which opcodes the map leaves out, and the step that fetches one. -/

namespace Sys2Proof

/-- A template whose unused slots are checked never answers that the opcode is unassigned. -/
theorem unlessReserved_ne_unassigned (unusedAreZero : Bool) (i : Instr) :
    unlessReserved unusedAreZero i ≠ .error .unassignedOpcode := by
  cases unusedAreZero <;> simp [unlessReserved]

/-- The 129 opcode values of R67. -/
abbrev UnassignedValue (op : Nat) : Prop :=
  (0x37 ≤ op ∧ op ≤ 0x7F) ∨ (0xA4 ≤ op ∧ op ≤ 0xA9) ∨ op = 0xCB ∨ (0xCF ≤ op ∧ op ≤ 0xFF)

/-- The opcode map of R66, row by row: the reader of a listed row answers no such error and its opcode is outside
the ranges; the values that no row lists are those inside. -/
theorem decodeOpcode_eq_unassigned_iff (op : BitVec 8) (w : Pattern) :
    decodeOpcode op w = .error .unassignedOpcode ↔ UnassignedValue op.toNat := by
  fun_cases decodeOpcode op w
  case case128 => -- the default: `op` differs from the opcode of each of the 127 rows
    refine iff_of_true rfl ?_
    simp only [imp_false] at *
    bv_omega
  all_goals
    refine iff_of_false ?_ (by decide)
    simp only [formatN, formatR1, formatR2, formatR3, formatR4, formatR5, formatR6, formatI0, formatI1,
      formatI2, formatJ, formatV, formatS, formatC, formatCX, formatP, formatT, reduceCtorEq,
      not_false_eq_true, unlessReserved_ne_unassigned]

/-- The opcode is the most significant field: nothing is above it to cut off. -/
theorem toNat_opcodeOf (w : Pattern) : (opcodeOf w).toNat = w.toNat / 2 ^ 36 := by
  rw [opcodeOf, toNat_field]
  omega

theorem decode_eq_unassigned_iff (w : Pattern) :
    decode w = .error .unassignedOpcode ↔ UnassignedValue (w.toNat / 2 ^ 36) := by
  rw [decode, decodeOpcode_eq_unassigned_iff, toNat_opcodeOf]

namespace Machine

/-- What the fetch of an unassigned opcode does: IllegalInstruction with the pattern, and nothing else. -/
theorem step_of_decode_unassigned (s : State) (w : Pattern) (hdecode : decode w = .error .unassignedOpcode)
    (hrun : s.runState = .running) (hfetch : s.fetch = some w) :
    step s = .next (s.faultedWith (.illegalInstruction w)) := by
  simp only [step, hrun, hfetch, hdecode, raise_eq]

/-- Settles O42: the opcode map decides the first part, the step's fetch the second. -/
theorem unassignedOpcodes : Obligations.UnassignedOpcodes := by
  unfold Obligations.UnassignedOpcodes
  rintro s w op rfl
  exact ⟨decode_eq_unassigned_iff w, step_of_decode_unassigned s w⟩

end Machine

end Sys2Proof

/-! Integer arithmetic (40_alu_arith.md): how the patterns of its formats are read, what each instruction of the
family ends in, and the four statements about it. -/

namespace Sys2Proof.Machine

/-! ### Reading a pattern (30_encoding.md R62) -/

theorem formatR1_pack (op : BitVec 8) (rd : Reg) (k : Reg → Instr) :
    formatR1 (pack op (slotOf rd) 0#6 0#6 0#6 0#6 0#6) k = .ok (k rd) := by
  simp [formatR1, unlessReserved]

theorem formatR2_pack (op : BitVec 8) (rs rt : Reg) (k : Reg → Reg → Instr) :
    formatR2 (pack op (slotOf rs) (slotOf rt) 0#6 0#6 0#6 0#6) k = .ok (k rs rt) := by
  simp [formatR2, unlessReserved]

theorem formatR3_pack (op : BitVec 8) (rd rs rt : Reg) (k : Reg → Reg → Reg → Instr) :
    formatR3 (pack op (slotOf rd) (slotOf rs) (slotOf rt) 0#6 0#6 0#6) k = .ok (k rd rs rt) := by
  simp [formatR3, unlessReserved]

theorem formatI2_packImm24 (op : BitVec 8) (r1 r2 : Reg) (imm : BitVec 24)
    (k : Reg → Reg → BitVec 24 → Instr) :
    formatI2 (packImm24 op (slotOf r1) (slotOf r2) imm) k = .ok (k r1 r2 imm) := by
  simp [formatI2]

/-- An opcode that the map gives format R1: slot1 is the operand and the other slots are 0. -/
theorem decode_slotsPattern_of_formatR1 (op : BitVec 8) (k : Reg → Instr) (rd : Reg)
    (hop : ∀ w, decodeOpcode op w = formatR1 w k) :
    decode (slotsPattern op.toNat rd 0 0 0 0 0) = .ok (k rd) := by
  have hpack : slotsPattern op.toNat rd 0 0 0 0 0 = pack op (slotOf rd) 0#6 0#6 0#6 0#6 0#6 :=
    slotsPattern_eq_pack op (slotOf rd) 0 0 0 0 0
  rw [hpack, decode, opcodeOf_pack, hop, formatR1_pack]

/-- An opcode that the map gives format R2: slot1 and slot2 are the operands and the other slots are 0. -/
theorem decode_slotsPattern_of_formatR2 (op : BitVec 8) (k : Reg → Reg → Instr) (rs rt : Reg)
    (hop : ∀ w, decodeOpcode op w = formatR2 w k) :
    decode (slotsPattern op.toNat rs rt 0 0 0 0) = .ok (k rs rt) := by
  have hpack : slotsPattern op.toNat rs rt 0 0 0 0 = pack op (slotOf rs) (slotOf rt) 0#6 0#6 0#6 0#6 :=
    slotsPattern_eq_pack op (slotOf rs) (slotOf rt) 0 0 0 0
  rw [hpack, decode, opcodeOf_pack, hop, formatR2_pack]

/-- An opcode that the map gives format R3: slot1 to slot3 are the operands and the other slots are 0. -/
theorem decode_slotsPattern_of_formatR3 (op : BitVec 8) (k : Reg → Reg → Reg → Instr) (rd rs rt : Reg)
    (hop : ∀ w, decodeOpcode op w = formatR3 w k) :
    decode (slotsPattern op.toNat rd rs rt 0 0 0) = .ok (k rd rs rt) := by
  have hpack : slotsPattern op.toNat rd rs rt 0 0 0 = pack op (slotOf rd) (slotOf rs) (slotOf rt) 0#6 0#6 0#6 :=
    slotsPattern_eq_pack op (slotOf rd) (slotOf rs) (slotOf rt) 0 0 0
  rw [hpack, decode, opcodeOf_pack, hop, formatR3_pack]

/-- An opcode that the map gives format I2: two registers and a 24-bit immediate fill the pattern. -/
theorem decode_imm24Pattern_of_formatI2 (op : BitVec 8) (k : Reg → Reg → BitVec 24 → Instr) (r1 r2 : Reg)
    (imm : BitVec 24) (hop : ∀ w, decodeOpcode op w = formatI2 w k) :
    decode (imm24Pattern op.toNat r1 r2 imm) = .ok (k r1 r2 imm) := by
  have hpack : imm24Pattern op.toNat r1 r2 imm = packImm24 op (slotOf r1) (slotOf r2) imm :=
    imm24Pattern_eq_packImm24 op (slotOf r1) (slotOf r2) imm
  rw [hpack, decode, opcodeOf_packImm24, hop, formatI2_packImm24]

/-! ### Overflow or the exact result (R100) -/

/-- An instruction that ends in the checked write faults outside the signed range, and inside it writes the word
with the exact result as its signed value. -/
theorem exec_writeChecked_spec {i : Instr} {rd : Reg} {r : Int} {s : State}
    (hexec : exec i s = writeChecked rd r s) :
    ((r < -(2 ^ 255) ∨ 2 ^ 255 - 1 < r) → exec i s = .next (s.faultedWith .overflow)) ∧
    ((-(2 ^ 255) ≤ r ∧ r ≤ 2 ^ 255 - 1) →
      ∃ (t : State) (v : Word), exec i s = .next t ∧ v.toInt = r ∧ WritesReg rd v s t) := by
  rw [hexec]
  exact ⟨writeChecked_of_not_fits rd r s, fun hfits =>
    ⟨_, _, writeChecked_of_fits rd r s hfits, toInt_ofInt_of_fits r hfits, writesReg_writeBack s rd _⟩⟩

/-- Settles O1: each of the four rows ends in the checked write of its exact result. -/
theorem checkedArithmetic : Obligations.CheckedArithmetic := by
  unfold Obligations.CheckedArithmetic
  intro s rd rs rt imm w i d r hrow
  simp only [List.mem_cons, List.not_mem_nil, or_false, Prod.mk.injEq] at hrow
  obtain ⟨rfl, rfl, rfl, rfl⟩ | ⟨rfl, rfl, rfl, rfl⟩ | ⟨rfl, rfl, rfl, rfl⟩ | ⟨rfl, rfl, rfl, rfl⟩ := hrow
  case inl => -- ADD
    exact ⟨decode_slotsPattern_of_formatR3 0x01 .add d rs rt fun _ => rfl, exec_writeChecked_spec rfl⟩
  case inr.inl => -- ADDI
    exact ⟨decode_imm24Pattern_of_formatI2 0x02 .addi rs d imm fun _ => rfl, exec_writeChecked_spec rfl⟩
  case inr.inr.inl => -- MULT
    exact ⟨decode_slotsPattern_of_formatR3 0x19 .mult d rs rt fun _ => rfl, exec_writeChecked_spec rfl⟩
  case inr.inr.inr => -- SUB
    exact ⟨decode_slotsPattern_of_formatR3 0x29 .sub d rs rt fun _ => rfl, exec_writeChecked_spec rfl⟩

/-! ### The result modulo 2^256 -/

theorem toNat_ofNat_word (n : Nat) : ((BitVec.ofNat 256 n).toNat : Int) = (n : Int) % 2 ^ 256 := by
  rw [BitVec.toNat_ofNat]
  norm_cast

theorem toNat_ofInt_word (r : Int) : ((BitVec.ofInt 256 r).toNat : Int) = r % 2 ^ 256 := by
  rw [BitVec.toNat_ofInt, Int.toNat_of_nonneg (Int.emod_nonneg r (by norm_num))]
  norm_cast

/-- Adding the sign-extended word is adding the signed immediate, modulo 2^256 (R103). -/
theorem toNat_add_signExtended (a : Nat) (imm : BitVec 24) :
    ((BitVec.ofNat 256 (a + (signExtended imm).toNat)).toNat : Int) = (a + imm.toInt) % 2 ^ 256 := by
  have himm : ((signExtended imm).toNat : Int) = imm.toInt % 2 ^ 256 := toNat_ofInt_word imm.toInt
  rw [toNat_ofNat_word, Nat.cast_add, himm, Int.add_emod_emod]

/-- An instruction that ends in the write of a word completes, and the write is its only effect. -/
theorem exec_writeBack_spec {i : Instr} {rd : Reg} {v : Word} {s : State}
    (hexec : exec i s = writeBack rd v s) : ∃ t, exec i s = .next t ∧ WritesReg rd v s t :=
  ⟨_, hexec, writesReg_writeBack s rd v⟩

/-- The word an instruction writes, named by its value. -/
theorem exec_writeBack_spec_of_toNat {i : Instr} {rd : Reg} {v : Word} {s : State} {r : Int}
    (hexec : exec i s = writeBack rd v s) (hvalue : (v.toNat : Int) = r % 2 ^ 256) :
    ∃ (t : State) (v : Word), exec i s = .next t ∧ (v.toNat : Int) = r % 2 ^ 256 ∧ WritesReg rd v s t :=
  have ⟨t, hnext, heffect⟩ := exec_writeBack_spec hexec
  ⟨t, v, hnext, hvalue, heffect⟩

/-- Settles O2: each of the four rows writes its result reduced modulo 2^256. -/
theorem wrappingArithmetic : Obligations.WrappingArithmetic := by
  unfold Obligations.WrappingArithmetic
  intro s rd rs rt imm w i d r hrow
  simp only [List.mem_cons, List.not_mem_nil, or_false, Prod.mk.injEq] at hrow
  obtain ⟨rfl, rfl, rfl, rfl⟩ | ⟨rfl, rfl, rfl, rfl⟩ | ⟨rfl, rfl, rfl, rfl⟩ | ⟨rfl, rfl, rfl, rfl⟩ := hrow
  case inl => -- ADDIU
    exact ⟨decode_imm24Pattern_of_formatI2 0x03 .addiu rs d imm fun _ => rfl,
      exec_writeBack_spec_of_toNat rfl (toNat_add_signExtended _ imm)⟩
  case inr.inl => -- ADDU
    exact ⟨decode_slotsPattern_of_formatR3 0x04 .addu d rs rt fun _ => rfl,
      exec_writeBack_spec_of_toNat rfl (by rw [toNat_ofNat_word, Nat.cast_add])⟩
  case inr.inr.inl => -- MULTU
    exact ⟨decode_slotsPattern_of_formatR3 0x1A .multu d rs rt fun _ => rfl,
      exec_writeBack_spec_of_toNat rfl (by rw [toNat_ofNat_word, Nat.cast_mul])⟩
  case inr.inr.inr => -- SUBU
    exact ⟨decode_slotsPattern_of_formatR3 0x2A .subu d rs rt fun _ => rfl,
      exec_writeBack_spec_of_toNat rfl (toNat_ofInt_word _)⟩

/-! ### Division (R105, R106, R113) -/

theorem exec_div_zero (rs rt : Reg) (s : State) (h : s.reg rt = 0) :
    exec (.div rs rt) s = .next (s.faultedWith .divideByZero) :=
  if_pos (by rw [h]; rfl)

theorem exec_divu_zero (rs rt : Reg) (s : State) (h : s.reg rt = 0) :
    exec (.divu rs rt) s = .next (s.faultedWith .divideByZero) :=
  if_pos (by rw [h]; rfl)

theorem exec_div_of_ne_zero (rs rt : Reg) (s : State) (h : (s.reg rt).toInt ≠ 0) :
    exec (.div rs rt) s =
      .next (s.setHiLo (signedRemainder (s.reg rs).toInt (s.reg rt).toInt)
        (signedQuotient (s.reg rs).toInt (s.reg rt).toInt)).advance :=
  if_neg h

theorem exec_divu_of_ne_zero (rs rt : Reg) (s : State) (h : (s.reg rt).toNat ≠ 0) :
    exec (.divu rs rt) s =
      .next (s.setHiLo (unsignedRemainder (s.reg rs) (s.reg rt))
        (unsignedQuotient (s.reg rs) (s.reg rt))).advance :=
  if_neg h

/-- A signed word is at most 2^255 in absolute value; MIN attains it. -/
theorem abs_toInt_le (v : Word) : |v.toInt| ≤ 2 ^ 255 := by
  have hlo := BitVec.le_two_mul_toInt (x := v)
  have hhi := BitVec.two_mul_toInt_lt (x := v)
  rw [abs_le]
  omega

/-- Settles O3: the quotient is `tdiv` and the remainder `tmod`, whose law and sign clauses Laws/Alu.lean has. -/
theorem division : Obligations.Division := by
  unfold Obligations.Division
  intro s rs rt
  refine ⟨decode_slotsPattern_of_formatR2 0x0F .div rs rt fun _ => rfl,
    decode_slotsPattern_of_formatR2 0x10 .divu rs rt fun _ => rfl,
    fun hzero => ⟨exec_div_zero rs rt s hzero, exec_divu_zero rs rt s hzero⟩,
    fun hne => ⟨?signed, ?unsigned⟩⟩
  case signed =>
    have hdivisor : (s.reg rt).toInt ≠ 0 := fun h => hne (BitVec.eq_of_toInt_eq h)
    obtain ⟨hsmaller, hpos, hneg⟩ := tmod_sign (s.reg rs).toInt (s.reg rt).toInt hdivisor
    exact ⟨_, _, _, (s.reg rs).toInt.tdiv (s.reg rt).toInt, (s.reg rs).toInt.tmod (s.reg rt).toInt,
      exec_div_of_ne_zero rs rt s hdivisor, writesHiLo_setHiLo _ _ s,
      (Int.tdiv_mul_add_tmod _ _).symm, hsmaller, hpos, hneg, rfl,
      toInt_signedRemainder (by norm_num) _ _ hdivisor (abs_toInt_le _)⟩
  case unsigned =>
    have hdivisor : (s.reg rt).toNat ≠ 0 := fun h => hne (BitVec.eq_of_toNat_eq h)
    exact ⟨_, _, _, exec_divu_of_ne_zero rs rt s hdivisor, writesHiLo_setHiLo _ _ s,
      toNat_unsignedQuotient _ _, toNat_unsignedRemainder _ _⟩

/-! ### `hi` and `lo` to a register -/

/-- Settles O4: both instructions end in the write of `rd`. -/
theorem moveFromHiLo : Obligations.MoveFromHiLo := by
  unfold Obligations.MoveFromHiLo
  intro s rd
  exact ⟨decode_slotsPattern_of_formatR1 0x17 .mfhi rd fun _ => rfl,
    decode_slotsPattern_of_formatR1 0x18 .mflo rd fun _ => rfl,
    exec_writeBack_spec rfl, exec_writeBack_spec rfl⟩

end Sys2Proof.Machine

/-! Logic, shifts, set-on-compare and LUI (41_alu_logic_shift_compare.md): the bits, the numbers and the truth values
that the instructions of the family write, and the three statements about it. -/

namespace Sys2Proof.Machine

/-! ### Reading a pattern of format I1 (30_encoding.md R62) -/

theorem formatI1_packImm24 (op : BitVec 8) (r1 : Reg) (imm : BitVec 24) (k : Reg → BitVec 24 → Instr) :
    formatI1 (packImm24 op (slotOf r1) 0#6 imm) k = .ok (k r1 imm) := by
  simp [formatI1, unlessReserved]

/-- An opcode that the map gives format I1: a register and a 24-bit immediate, and slot2 is 0. -/
theorem decode_imm24Pattern_of_formatI1 (op : BitVec 8) (k : Reg → BitVec 24 → Instr) (r1 : Reg)
    (imm : BitVec 24) (hop : ∀ w, decodeOpcode op w = formatI1 w k) :
    decode (imm24Pattern op.toNat r1 0 imm) = .ok (k r1 imm) := by
  have hpack : imm24Pattern op.toNat r1 0 imm = packImm24 op (slotOf r1) 0#6 imm :=
    imm24Pattern_eq_packImm24 op (slotOf r1) 0 imm
  rw [hpack, decode, opcodeOf_packImm24, hop, formatI1_packImm24]

/-! ### The zero-extended immediate (R65) -/

theorem getLsbD_zeroExtended (imm : BitVec 24) {k : Nat} (hk : k < 256) :
    (zeroExtended imm).getLsbD k = imm.getLsbD k := by
  rw [zeroExtended, BitVec.getLsbD_setWidth, decide_eq_true hk, Bool.true_and]

theorem toNat_zeroExtended (imm : BitVec 24) : (zeroExtended imm).toNat = imm.toNat :=
  BitVec.toNat_setWidth_of_le (by norm_num)

/-- The operand of LUI has 40 bits, so none is cut off (R123). -/
theorem toNat_upperImmediate (imm : BitVec 24) : (upperImmediate imm).toNat = imm.toNat * 2 ^ 16 := by
  have himm := imm.isLt
  rw [upperImmediate, BitVec.toNat_ofNat]
  omega

/-! ### What the family writes, by its bits, as a number and as a truth value -/

/-- An instruction that writes a word completes with a word of those bits. -/
theorem exec_writeBack_spec_of_bits {i : Instr} {rd : Reg} {v : Word} {s : State} {bit : Nat → Bool}
    (hexec : exec i s = writeBack rd v s) (hbits : ∀ k, k < 256 → v.getLsbD k = bit k) :
    ∃ (t : State) (v : Word), exec i s = .next t ∧ WritesReg rd v s t ∧
      ∀ k, k < 256 → v.getLsbD k = bit k :=
  have ⟨t, hnext, heffect⟩ := exec_writeBack_spec hexec
  ⟨t, v, hnext, heffect, hbits⟩

/-- An instruction that writes a word completes with a word of that value, read as unsigned or as signed. -/
theorem exec_writeBack_spec_of_value {α : Type} {value : Word → α} {i : Instr} {rd : Reg} {v : Word} {s : State}
    {r : α} (hexec : exec i s = writeBack rd v s) (hvalue : value v = r) :
    ∃ (t : State) (v : Word), exec i s = .next t ∧ value v = r ∧ WritesReg rd v s t :=
  have ⟨t, hnext, heffect⟩ := exec_writeBack_spec hexec
  ⟨t, v, hnext, hvalue, heffect⟩

/-- An instruction that writes the result of a comparison writes 1 where it holds and 0 where not (R120 d). -/
theorem exec_writeBack_spec_of_oneIf {i : Instr} {rd : Reg} {c : Bool} {s : State} {less : Prop}
    (hexec : exec i s = writeBack rd (oneIf c) s) (hless : c = true ↔ less) :
    ∃ (t : State) (v : Word), exec i s = .next t ∧ WritesReg rd v s t ∧
      (less → v = 1) ∧ (¬less → v = 0) :=
  have ⟨t, hnext, heffect⟩ := exec_writeBack_spec hexec
  ⟨t, oneIf c, hnext, heffect, fun h => if_pos (hless.mpr h), fun h => if_neg (mt hless.mp h)⟩

/-! ### Logic -/

/-- Settles O5: each of the six rows writes the bitwise operation on the words, which acts on each bit alone. -/
theorem logic : Obligations.Logic := by
  unfold Obligations.Logic
  intro s rd rs rt imm w i d f operand hrow
  simp only [List.mem_cons, List.not_mem_nil, or_false, Prod.mk.injEq] at hrow
  obtain ⟨rfl, rfl, rfl, rfl, rfl⟩ | ⟨rfl, rfl, rfl, rfl, rfl⟩ | ⟨rfl, rfl, rfl, rfl, rfl⟩ |
    ⟨rfl, rfl, rfl, rfl, rfl⟩ | ⟨rfl, rfl, rfl, rfl, rfl⟩ | ⟨rfl, rfl, rfl, rfl, rfl⟩ := hrow
  case inl => -- AND
    exact ⟨decode_slotsPattern_of_formatR3 0x05 .and d rs rt fun _ => rfl,
      exec_writeBack_spec_of_bits rfl fun _ _ => BitVec.getLsbD_and⟩
  case inr.inl => -- ANDI
    exact ⟨decode_imm24Pattern_of_formatI2 0x06 .andi d rs imm fun _ => rfl,
      exec_writeBack_spec_of_bits rfl fun k hk => by rw [BitVec.getLsbD_and, getLsbD_zeroExtended imm hk]⟩
  case inr.inr.inl => -- OR
    exact ⟨decode_slotsPattern_of_formatR3 0x1C .or d rs rt fun _ => rfl,
      exec_writeBack_spec_of_bits rfl fun _ _ => BitVec.getLsbD_or⟩
  case inr.inr.inr.inl => -- ORI
    exact ⟨decode_imm24Pattern_of_formatI2 0x1D .ori d rs imm fun _ => rfl,
      exec_writeBack_spec_of_bits rfl fun k hk => by rw [BitVec.getLsbD_or, getLsbD_zeroExtended imm hk]⟩
  case inr.inr.inr.inr.inl => -- XOR
    exact ⟨decode_slotsPattern_of_formatR3 0x2D .xor d rs rt fun _ => rfl,
      exec_writeBack_spec_of_bits rfl fun _ _ => BitVec.getLsbD_xor⟩
  case inr.inr.inr.inr.inr => -- XORI
    exact ⟨decode_imm24Pattern_of_formatI2 0x2E .xori rs d imm fun _ => rfl,
      exec_writeBack_spec_of_bits rfl fun k hk => by rw [BitVec.getLsbD_xor, getLsbD_zeroExtended imm hk]⟩

/-! ### LUI and the shifts -/

/-- The signed value of an arithmetic shift of a register word, for every amount (R120 c). -/
theorem toInt_shiftRightArithmetic_word (v : Word) (n : Nat) :
    (shiftRightArithmetic v n).toInt = v.toInt / 2 ^ n :=
  toInt_shiftRightArithmetic (by norm_num) v n

/-- Settles O6: the five unsigned rows and the two signed ones write the number that Laws/Alu.lean gives the shift,
at every amount; the immediate and the register form differ only in where the amount comes from. -/
theorem shifts : Obligations.Shifts := by
  unfold Obligations.Shifts
  refine ⟨?unsigned, ?signed⟩
  case unsigned =>
    intro s rd rs rt imm w i r hrow
    simp only [List.mem_cons, List.not_mem_nil, or_false, Prod.mk.injEq] at hrow
    obtain ⟨rfl, rfl, rfl⟩ | ⟨rfl, rfl, rfl⟩ | ⟨rfl, rfl, rfl⟩ | ⟨rfl, rfl, rfl⟩ | ⟨rfl, rfl, rfl⟩ := hrow
    case inl => -- LUI
      exact ⟨decode_imm24Pattern_of_formatI1 0x15 .lui rd imm fun _ => rfl,
        exec_writeBack_spec_of_value rfl (toNat_upperImmediate imm)⟩
    case inr.inl => -- SLL
      exact ⟨decode_imm24Pattern_of_formatI2 0x1F .sll rd rs imm fun _ => rfl,
        exec_writeBack_spec_of_value rfl (toNat_shiftLeft _ _)⟩
    case inr.inr.inl => -- SLLV
      exact ⟨decode_slotsPattern_of_formatR3 0x20 .sllv rd rs rt fun _ => rfl,
        exec_writeBack_spec_of_value rfl (toNat_shiftLeft _ _)⟩
    case inr.inr.inr.inl => -- SRL
      exact ⟨decode_imm24Pattern_of_formatI2 0x26 .srl rd rs imm fun _ => rfl,
        exec_writeBack_spec_of_value rfl (toNat_shiftRightLogical _ _)⟩
    case inr.inr.inr.inr => -- SRLV
      exact ⟨decode_slotsPattern_of_formatR3 0x27 .srlv rd rs rt fun _ => rfl,
        exec_writeBack_spec_of_value rfl (toNat_shiftRightLogical _ _)⟩
  case signed =>
    intro s rd rs rt imm w i n hrow
    simp only [List.mem_cons, List.not_mem_nil, or_false, Prod.mk.injEq] at hrow
    obtain ⟨rfl, rfl, rfl⟩ | ⟨rfl, rfl, rfl⟩ := hrow
    case inl => -- SRA
      exact ⟨decode_imm24Pattern_of_formatI2 0x25 .sra rd rs imm fun _ => rfl,
        exec_writeBack_spec_of_value rfl (toInt_shiftRightArithmetic_word _ _)⟩
    case inr => -- SRAV
      exact ⟨decode_slotsPattern_of_formatR3 0x28 .srav rd rs rt fun _ => rfl,
        exec_writeBack_spec_of_value rfl (toInt_shiftRightArithmetic_word _ _)⟩

/-! ### Set on less than -/

theorem ltSigned_iff {w : Nat} (a b : BitVec w) : ltSigned a b = true ↔ a.toInt < b.toInt := decide_eq_true_iff

theorem ltUnsigned_iff {w : Nat} (a b : BitVec w) : ltUnsigned a b = true ↔ a.toNat < b.toNat :=
  decide_eq_true_iff

/-- Settles O7: each of the four rows writes the result of its comparison, the signed immediate as the number it is
and the unsigned one zero-extended. -/
theorem setOnLessThan : Obligations.SetOnLessThan := by
  unfold Obligations.SetOnLessThan
  intro s rd rs rt imm w i less hrow
  simp only [List.mem_cons, List.not_mem_nil, or_false, Prod.mk.injEq] at hrow
  obtain ⟨rfl, rfl, rfl⟩ | ⟨rfl, rfl, rfl⟩ | ⟨rfl, rfl, rfl⟩ | ⟨rfl, rfl, rfl⟩ := hrow
  case inl => -- SLT
    exact ⟨decode_slotsPattern_of_formatR3 0x21 .slt rd rs rt fun _ => rfl,
      exec_writeBack_spec_of_oneIf rfl (ltSigned_iff _ _)⟩
  case inr.inl => -- SLTI
    exact ⟨decode_imm24Pattern_of_formatI2 0x22 .slti rd rs imm fun _ => rfl,
      exec_writeBack_spec_of_oneIf rfl decide_eq_true_iff⟩
  case inr.inr.inl => -- SLTIU
    exact ⟨decode_imm24Pattern_of_formatI2 0x23 .sltiu rd rs imm fun _ => rfl,
      exec_writeBack_spec_of_oneIf rfl (by rw [ltUnsigned_iff, toNat_zeroExtended])⟩
  case inr.inr.inr => -- SLTU
    exact ⟨decode_slotsPattern_of_formatR3 0x24 .sltu rd rs rt fun _ => rfl,
      exec_writeBack_spec_of_oneIf rfl (ltUnsigned_iff _ _)⟩

end Sys2Proof.Machine

/-! Control transfer, STOP, NOOP and SYSCALL (42_alu_control.md): how the patterns of formats N and J are read, what
a conditional branch does taken and not taken, the bits of a region target, and the four statements about the
family. -/

namespace Sys2Proof.Machine

/-! ### Reading a pattern of formats N and J (30_encoding.md R62) -/

theorem formatN_pack (op : BitVec 8) (i : Instr) :
    formatN (pack op 0#6 0#6 0#6 0#6 0#6 0#6) i = .ok i := by
  simp [formatN, unlessReserved]

theorem formatJ_packImm36 (op : BitVec 8) (target : BitVec 36) (k : BitVec 36 → Instr) :
    formatJ (packImm36 op target) k = .ok (k target) := by
  simp [formatJ]

/-- An opcode that the map gives format N: no operands, and the six slots are 0. -/
theorem decode_slotsPattern_of_formatN (op : BitVec 8) (i : Instr) (hop : ∀ w, decodeOpcode op w = formatN w i) :
    decode (slotsPattern op.toNat 0 0 0 0 0 0) = .ok i := by
  have hpack : slotsPattern op.toNat 0 0 0 0 0 0 = pack op 0#6 0#6 0#6 0#6 0#6 0#6 :=
    slotsPattern_eq_pack op 0 0 0 0 0 0
  rw [hpack, decode, opcodeOf_pack, hop, formatN_pack]

/-- An opcode that the map gives format J: the 36-bit field fills the six slots. -/
theorem decode_imm36Pattern_of_formatJ (op : BitVec 8) (k : BitVec 36 → Instr) (target : BitVec 36)
    (hop : ∀ w, decodeOpcode op w = formatJ w k) :
    decode (imm36Pattern op.toNat target) = .ok (k target) := by
  rw [imm36Pattern_eq_packImm36, decode, opcodeOf_packImm36, hop, formatJ_packImm36]

/-! ### The conditions of the branches (R140) -/

theorem isNonNegative_iff (v : Word) : isNonNegative v = true ↔ 0 ≤ v.toInt := decide_eq_true_iff

theorem isPositive_iff (v : Word) : isPositive v = true ↔ 0 < v.toInt := decide_eq_true_iff

theorem isNonPositive_iff (v : Word) : isNonPositive v = true ↔ v.toInt ≤ 0 := decide_eq_true_iff

theorem isNegative_iff (v : Word) : isNegative v = true ↔ v.toInt < 0 := decide_eq_true_iff

/-! ### A conditional branch, taken and not taken -/

/-- An instruction that ends in a conditional branch: the transfer where its condition holds, else the advance. -/
theorem exec_branchIf_spec {i : Instr} {c : Bool} {off : BitVec 24} {s : State} {taken : Prop}
    (hexec : exec i s = branchIf c off s) (hcond : c = true ↔ taken) :
    (taken → ∃ t : State, exec i s = .next t ∧
      OnlyTransfers (BitVec.ofInt 32 (s.npc.toNat + 4 * off.toInt)) s t) ∧
    (¬taken → ∃ t : State, exec i s = .next t ∧ OnlyAdvances s t) := by
  rw [hexec, ← hcond]
  cases c with
  | true =>
    exact ⟨fun _ => ⟨_, branchIf_true off s, onlyTransfers_transfer s _⟩, fun h => absurd rfl h⟩
  | false =>
    exact ⟨fun h => absurd h Bool.false_ne_true,
      fun _ => ⟨_, branchIf_false off s, onlyAdvances_advance s⟩⟩

/-- An instruction that ends in a linking branch: the link and the transfer where its condition holds, else the
advance alone. -/
theorem exec_branchLinkIf_spec {i : Instr} {c : Bool} {off : BitVec 24} {s : State} {taken : Prop}
    (hexec : exec i s = branchLinkIf c off s) (hcond : c = true ↔ taken) :
    (taken → ∃ (t : State) (link : Word), exec i s = .next t ∧
      link.toNat = (s.pc.toNat + 12) % 2 ^ 32 ∧
      LinksAndTransfers link (BitVec.ofInt 32 (s.npc.toNat + 4 * off.toInt)) s t) ∧
    (¬taken → ∃ t : State, exec i s = .next t ∧ OnlyAdvances s t) := by
  rw [hexec, ← hcond]
  cases c with
  | true =>
    exact ⟨fun _ => ⟨_, _, branchLinkIf_true off s, toNat_linkValue s.pc 12, linksAndTransfers_setReg _ _ s⟩,
      fun h => absurd rfl h⟩
  | false =>
    exact ⟨fun h => absurd h Bool.false_ne_true,
      fun _ => ⟨_, branchLinkIf_false off s, onlyAdvances_advance s⟩⟩

/-- Settles O8: each of the six rows ends in a conditional branch on its condition. -/
theorem branches : Obligations.Branches := by
  unfold Obligations.Branches
  intro s rs rt off w i taken hrow
  simp only [List.mem_cons, List.not_mem_nil, or_false, Prod.mk.injEq] at hrow
  obtain ⟨rfl, rfl, rfl⟩ | ⟨rfl, rfl, rfl⟩ | ⟨rfl, rfl, rfl⟩ | ⟨rfl, rfl, rfl⟩ | ⟨rfl, rfl, rfl⟩ |
    ⟨rfl, rfl, rfl⟩ := hrow
  case inl => -- BEQ
    exact ⟨decode_imm24Pattern_of_formatI2 0x07 .beq rs rt off fun _ => rfl,
      exec_branchIf_spec rfl beq_iff_eq⟩
  case inr.inl => -- BGEZ
    exact ⟨decode_imm24Pattern_of_formatI1 0x08 .bgez rs off fun _ => rfl,
      exec_branchIf_spec rfl (isNonNegative_iff _)⟩
  case inr.inr.inl => -- BGTZ
    exact ⟨decode_imm24Pattern_of_formatI1 0x0A .bgtz rs off fun _ => rfl,
      exec_branchIf_spec rfl (isPositive_iff _)⟩
  case inr.inr.inr.inl => -- BLEZ
    exact ⟨decode_imm24Pattern_of_formatI1 0x0B .blez rs off fun _ => rfl,
      exec_branchIf_spec rfl (isNonPositive_iff _)⟩
  case inr.inr.inr.inr.inl => -- BLTZ
    exact ⟨decode_imm24Pattern_of_formatI1 0x0C .bltz rs off fun _ => rfl,
      exec_branchIf_spec rfl (isNegative_iff _)⟩
  case inr.inr.inr.inr.inr => -- BNE
    exact ⟨decode_imm24Pattern_of_formatI2 0x0E .bne rs rt off fun _ => rfl,
      exec_branchIf_spec rfl bne_iff_ne⟩

/-- Settles O9: both rows end in a linking branch, whose condition is read from the state before the link. -/
theorem linkingBranches : Obligations.LinkingBranches := by
  unfold Obligations.LinkingBranches
  intro s rs off w i taken hrow
  simp only [List.mem_cons, List.not_mem_nil, or_false, Prod.mk.injEq] at hrow
  obtain ⟨rfl, rfl, rfl⟩ | ⟨rfl, rfl, rfl⟩ := hrow
  case inl => -- BGEZAL
    exact ⟨decode_imm24Pattern_of_formatI1 0x09 .bgezal rs off fun _ => rfl,
      exec_branchLinkIf_spec rfl (isNonNegative_iff _)⟩
  case inr => -- BLTZAL
    exact ⟨decode_imm24Pattern_of_formatI1 0x0D .bltzal rs off fun _ => rfl,
      exec_branchLinkIf_spec rfl (isNegative_iff _)⟩

/-! ### The jumps (R150 to R153) -/

/-- The region mask of R152 keeps bits 28 to 31. -/
theorem testBit_regionMask : ∀ k < 32, Nat.testBit 0xF0000000 k = decide (28 ≤ k) := by decide

/-- The bits of a region target: the four region bits of the delay slot's address, OR-ed with the field shifted by
2; what the field has above bit 29 is cut off (R152). -/
theorem getLsbD_regionTarget (newPc : CodeAddr) (target : BitVec 36) {k : Nat} (hk : k < 32) :
    (regionTarget newPc target).getLsbD k =
      ((decide (28 ≤ k) && newPc.getLsbD k) || (decide (2 ≤ k) && target.getLsbD (k - 2))) := by
  have hregion : (newPc.toNat &&& 0xF0000000).testBit k = (decide (28 ≤ k) && newPc.getLsbD k) := by
    rw [Nat.testBit_and, testBit_regionMask k hk, Bool.and_comm, BitVec.testBit_toNat]
  have hfield : (target.toNat * 4).testBit k = (decide (2 ≤ k) && target.getLsbD (k - 2)) :=
    Nat.testBit_mul_two_pow target.toNat k 2
  rw [regionTarget, BitVec.getLsbD_ofNat, decide_eq_true hk, Bool.true_and, Nat.testBit_or, hregion, hfield]

/-- Only the low 32 bits of a register value go to `nPC` (R17, R153). -/
theorem toNat_registerTarget (v : Word) : (registerTarget v).toNat = v.toNat % 2 ^ 32 := BitVec.toNat_setWidth ..

/-- Settles O10: J and JAL transfer to the same region target, which has the bits of R152; JAL links on the way; JR
transfers to the truncated register. -/
theorem jumps : Obligations.Jumps := by
  unfold Obligations.Jumps
  intro s rs target
  refine ⟨decode_imm36Pattern_of_formatJ 0x11 .j target fun _ => rfl,
    decode_imm36Pattern_of_formatJ 0x12 .jal target fun _ => rfl,
    decode_slotsPattern_of_formatR1 0x13 .jr rs fun _ => rfl,
    ⟨regionTarget s.npc target, fun _ => getLsbD_regionTarget s.npc target, ?j, ?jal⟩, ?jr⟩
  case j => exact ⟨_, rfl, onlyTransfers_transfer s _⟩
  case jal => exact ⟨_, _, rfl, toNat_linkValue s.pc 8, linksAndTransfers_setReg _ _ s⟩
  case jr => exact ⟨_, _, rfl, toNat_registerTarget _, onlyTransfers_transfer s _⟩

/-! ### STOP, NOOP and SYSCALL -/

/-- Settles O11: STOP is the halt that leaves the counters, NOOP and SYSCALL are `advance()`. -/
theorem stopNoopSyscall : Obligations.StopNoopSyscall := by
  unfold Obligations.StopNoopSyscall
  intro s
  refine ⟨decode_slotsPattern_of_formatN 0x00 .stop fun _ => rfl,
    decode_slotsPattern_of_formatN 0x1B .noop fun _ => rfl,
    decode_slotsPattern_of_formatN 0x2C .syscall fun _ => rfl, ?stop, ?noop, ?syscall⟩
  case stop => exact ⟨_, rfl, onlyEnds_halt s .stopped⟩
  case noop => exact ⟨_, rfl, onlyAdvances_advance s⟩
  case syscall => exact ⟨_, rfl, onlyAdvances_advance s⟩

end Sys2Proof.Machine

/-! Loads and stores (43_alu_loadstore.md): the effective address, what an instruction that reads or writes data memory
does on either side of the range check, the words and bytes it carries, and the two statements about the family. -/

namespace Sys2Proof.Machine

/-- The sum of base and signed offset wraps modulo 2^256 (R44, R160). -/
theorem effectiveAddress_eq (base : Word) (off : BitVec 24) :
    (effectiveAddress base off : Int) = (base.toNat + off.toInt) % 2 ^ 256 :=
  toNat_ofInt_word _

/-! ### The two sides of the range check (20_memory.md R41, R42) -/

theorem exec_memRead_past_end {i : Instr} {s : State} {addr n : Nat} {k : List Byte → Result}
    (hexec : exec i s = orRaise (s.memRead addr n) s k) (hn : 0 < n) (hend : s.params.memSize < addr + n) :
    exec i s = .next (s.faultedWith (.memoryFault addr n)) := by
  rw [hexec, memRead_of_not_fits s addr n ((s.not_fits_iff addr n).mpr ⟨hn, hend⟩), orRaise_error]

/-- A load inside the memory writes `rd` with the word it makes of the bytes at the address. -/
theorem exec_load_inside {i : Instr} {s : State} {addr n : Nat} {rd : Reg} {word : List Byte → Word}
    (hexec : exec i s = orRaise (s.memRead addr n) s fun bytes => writeBack rd (word bytes) s)
    (hend : addr + n ≤ s.params.memSize) :
    ∃ t : State, exec i s = .next t ∧ WritesReg rd (word (s.bytesAt addr n)) s t := by
  apply exec_writeBack_spec
  rw [hexec, memRead_eq_bytesAt s addr n (.inr hend), orRaise_ok]

theorem exec_store_past_end {i : Instr} {s : State} {addr n : Nat} {bytes : List Byte}
    (hexec : exec i s = store addr bytes s) (hlength : bytes.length = n) (hn : 0 < n)
    (hend : s.params.memSize < addr + n) :
    exec i s = .next (s.faultedWith (.memoryFault addr n)) := by
  subst hlength
  rw [hexec, store_of_not_fits addr bytes s ((s.not_fits_iff addr bytes.length).mpr ⟨hn, hend⟩)]

theorem exec_store_inside {i : Instr} {s : State} {addr n : Nat} {bytes : List Byte}
    (hexec : exec i s = store addr bytes s) (hlength : bytes.length = n) (hend : addr + n ≤ s.params.memSize) :
    ∃ t : State, exec i s = .next t ∧ WritesMemory addr bytes s t := by
  subst hlength
  exact ⟨_, hexec.trans (store_of_fits addr bytes s (.inr hend)), writesMemory_writeBytes s addr bytes⟩

/-! ### The values loaded and the bytes stored (R43) -/

/-- The word LB makes of one byte has the byte's signed value (R161). -/
theorem toInt_signExtend_beNat_singleton (b : Byte) :
    ((BitVec.ofNat 8 (beNat [b])).signExtend 256).toInt = b.toInt := by
  have hbyte : BitVec.ofNat 8 (beNat [b]) = b := by simp [beNat]
  rw [hbyte, BitVec.toInt_signExtend_of_le (by norm_num)]

/-- A word holds the number in 32 bytes of memory without cutting it off (R162). -/
theorem toNat_ofNat_beNat_bytesAt (s : State) (addr : Nat) :
    (BitVec.ofNat 256 (beNat (s.bytesAt addr 32))).toNat = s.numberAt addr 32 := by
  rw [← bigEndian_eq, ← State.numberAt, BitVec.toNat_ofNat]
  exact Nat.mod_eq_of_lt (numberAt_lt s addr 32)

/-- The 32 bytes SW stores hold the whole word (R164). -/
theorem bigEndian_bytesBE_word (v : Word) : bigEndian (bytesBE v.toNat 32) = v.toNat := by
  rw [bigEndian_eq, beNat_bytesBE]
  exact Nat.mod_eq_of_lt v.isLt

/-! ### The statements -/

/-- Settles O12: both loads read data memory at the effective address and write `rd`; they differ in the count and in
the word they make of the bytes. -/
theorem loads : Obligations.Loads := by
  unfold Obligations.Loads
  intro s rd rs off
  refine ⟨decode_imm24Pattern_of_formatI2 0x14 .lb rd rs off fun _ => rfl,
    decode_imm24Pattern_of_formatI2 0x16 .lw rd rs off fun _ => rfl,
    effectiveAddress_eq (s.reg rs) off, fun hend => ?lbPast, fun hfit => ?lbInside, fun hend => ?lwPast,
    fun hfit => ?lwInside⟩
  case lbPast => exact exec_memRead_past_end rfl Nat.one_pos (Nat.lt_succ_of_le hend)
  case lbInside =>
    obtain ⟨t, hnext, heffect⟩ := exec_load_inside (i := .lb rd rs off) rfl (Nat.succ_le_of_lt hfit)
    exact ⟨t, _, hnext, heffect, toInt_signExtend_beNat_singleton _⟩
  case lwPast => exact exec_memRead_past_end rfl (by norm_num) hend
  case lwInside =>
    obtain ⟨t, hnext, heffect⟩ := exec_load_inside (i := .lw rd rs off) rfl hfit
    exact ⟨t, _, hnext, heffect, toNat_ofNat_beNat_bytesAt s _⟩

/-- Settles O13: both stores are a `store` at the effective address; they differ in the bytes of `rt` they carry. -/
theorem stores : Obligations.Stores := by
  unfold Obligations.Stores
  intro s rs rt off
  have hlength : (bytesBE (s.reg rt).toNat 32).length = 32 := length_bytesBE _ 32
  refine ⟨decode_imm24Pattern_of_formatI2 0x1E .sb rs rt off fun _ => rfl,
    decode_imm24Pattern_of_formatI2 0x2B .sw rs rt off fun _ => rfl,
    effectiveAddress_eq (s.reg rs) off, fun hend => ?sbPast, fun hfit => ?sbInside, fun hend => ?swPast,
    fun hfit => ?swInside⟩
  case sbPast => exact exec_store_past_end rfl rfl Nat.one_pos (Nat.lt_succ_of_le hend)
  case sbInside =>
    obtain ⟨t, hnext, heffect⟩ := exec_store_inside (i := .sb rs rt off) rfl rfl (Nat.succ_le_of_lt hfit)
    exact ⟨t, _, hnext, BitVec.toNat_setWidth .., heffect⟩
  case swPast => exact exec_store_past_end rfl hlength (by norm_num) hend
  case swInside =>
    obtain ⟨t, hnext, heffect⟩ := exec_store_inside (i := .sw rs rt off) rfl hlength hfit
    exact ⟨t, _, hnext, hlength, bigEndian_bytesBE_word _, heffect⟩

end Sys2Proof.Machine

/-! The "Special EVM op" arithmetic (44_alu_evm_arith.md): how a pattern of format R4 is read, what the unsigned and the
signed modulo do on a zero modulus and on any other, the checks of ADDMOD, and the four statements about the family. -/

namespace Sys2Proof.Machine

/-! ### Reading a pattern of format R4 (30_encoding.md R62) -/

theorem formatR4_pack (op : BitVec 8) (rd rs rt ru : Reg) (k : Reg → Reg → Reg → Reg → Instr) :
    formatR4 (pack op (slotOf rd) (slotOf rs) (slotOf rt) (slotOf ru) 0#6 0#6) k = .ok (k rd rs rt ru) := by
  simp [formatR4, unlessReserved]

/-- An opcode that the map gives format R4: slot1 to slot4 are the operands and the other slots are 0. -/
theorem decode_slotsPattern_of_formatR4 (op : BitVec 8) (k : Reg → Reg → Reg → Reg → Instr) (rd rs rt ru : Reg)
    (hop : ∀ w, decodeOpcode op w = formatR4 w k) :
    decode (slotsPattern op.toNat rd rs rt ru 0 0) = .ok (k rd rs rt ru) := by
  have hpack : slotsPattern op.toNat rd rs rt ru 0 0 =
      pack op (slotOf rd) (slotOf rs) (slotOf rt) (slotOf ru) 0#6 0#6 :=
    slotsPattern_eq_pack op (slotOf rd) (slotOf rs) (slotOf rt) (slotOf ru) 0 0
  rw [hpack, decode, opcodeOf_pack, hop, formatR4_pack]

/-! ### MOD and MODI: the unsigned modulo (R170 c to e) -/

/-- An instruction that ends in the unsigned modulo, its two operand words named by their values. -/
theorem exec_moduloUnsigned_spec {i : Instr} {rd : Reg} {a b : Word} {s : State} {dividend m : Nat}
    (hexec : exec i s = moduloUnsigned rd a b s) (ha : a.toNat = dividend) (hb : b.toNat = m) :
    (m = 0 → exec i s = .next (s.faultedWith .divideByZero)) ∧
    (m ≠ 0 → ∃ (t : State) (r q : Word), exec i s = .next t ∧ WritesRegHiLo rd r r q s t ∧
      r.toNat = dividend % m ∧ q.toNat = dividend / m) := by
  subst ha hb
  rw [hexec]
  exact ⟨moduloUnsigned_zero rd a b s, fun hne =>
    ⟨_, _, _, moduloUnsigned_pos rd a b s hne, writesRegHiLo_writeModulo rd _ _ s,
      toNat_unsignedRemainder a b, toNat_unsignedQuotient a b⟩⟩

/-- Settles O15: both rows end in the unsigned modulo, MODI with the immediate zero-extended. -/
theorem unsignedModulo : Obligations.UnsignedModulo := by
  unfold Obligations.UnsignedModulo
  intro s rd rs rt imm w i m hrow
  simp only [List.mem_cons, List.not_mem_nil, or_false, Prod.mk.injEq] at hrow
  obtain ⟨rfl, rfl, rfl⟩ | ⟨rfl, rfl, rfl⟩ := hrow
  case inl => -- MOD
    exact ⟨decode_slotsPattern_of_formatR3 0x2F .mod rd rs rt fun _ => rfl,
      exec_moduloUnsigned_spec rfl rfl rfl⟩
  case inr => -- MODI
    exact ⟨decode_imm24Pattern_of_formatI2 0x34 .modi rd rs imm fun _ => rfl,
      exec_moduloUnsigned_spec rfl rfl (toNat_zeroExtended imm)⟩

/-! ### SMOD and SMODI: the signed modulo (R170 c to e, R113) -/

theorem toInt_signExtended (imm : BitVec 24) : (signExtended imm).toInt = imm.toInt :=
  BitVec.toInt_signExtend_of_le (by norm_num)

/-- An instruction that ends in the signed modulo by a value of a word: the remainder is exact, and the quotient is
re-encoded (`MIN smod -1` has the quotient 2^255, which wraps). -/
theorem exec_moduloSigned_spec {i : Instr} {rd : Reg} {a m : Int} {s : State} {modulus : Word}
    (hexec : exec i s = moduloSigned rd a m s) (hm : modulus.toInt = m) :
    (m = 0 → exec i s = .next (s.faultedWith .divideByZero)) ∧
    (m ≠ 0 → ∃ (t : State) (rem quo : Word) (q r : Int),
      exec i s = .next t ∧ WritesRegHiLo rd rem rem quo s t ∧
      a = q * m + r ∧ |r| < |m| ∧ (0 < r → 0 < a) ∧ (r < 0 → a < 0) ∧
      quo = BitVec.ofInt 256 q ∧ rem.toInt = r) := by
  rw [hexec]
  refine ⟨fun hzero => ?zero, fun hne => ?nonzero⟩
  case zero => rw [hzero, moduloSigned_zero]
  case nonzero =>
    have hbound : |m| ≤ 2 ^ 255 := hm ▸ abs_toInt_le modulus
    obtain ⟨hsmaller, hpos, hneg⟩ := tmod_sign a m hne
    exact ⟨_, _, _, a.tdiv m, a.tmod m, moduloSigned_ne rd a m s hne, writesRegHiLo_writeModulo rd _ _ s,
      (Int.tdiv_mul_add_tmod a m).symm, hsmaller, hpos, hneg, rfl,
      toInt_signedRemainder (by norm_num) a m hne hbound⟩

/-- Settles O16: both rows end in the signed modulo, SMODI with the signed immediate, which is the value of its
sign-extended word. -/
theorem signedModulo : Obligations.SignedModulo := by
  unfold Obligations.SignedModulo
  intro s rd rs rt imm w i m hrow
  simp only [List.mem_cons, List.not_mem_nil, or_false, Prod.mk.injEq] at hrow
  obtain ⟨rfl, rfl, rfl⟩ | ⟨rfl, rfl, rfl⟩ := hrow
  case inl => -- SMOD
    exact ⟨decode_slotsPattern_of_formatR3 0x30 .smod rd rs rt fun _ => rfl,
      exec_moduloSigned_spec rfl rfl⟩
  case inr => -- SMODI
    exact ⟨decode_imm24Pattern_of_formatI2 0x35 .smodi rd rs imm fun _ => rfl,
      exec_moduloSigned_spec rfl (toInt_signExtended imm)⟩

/-! ### ADDMOD and MULMOD (R173, R174) -/

theorem carryOut_iff (a b : Word) : carryOut a b = true ↔ 2 ^ 256 ≤ a.toNat + b.toNat := decide_eq_true_iff

/-- Both checks of the sum, the signed one and the carry, answer Overflow, whatever the modulus is. -/
theorem execAddmod_overflow (rd rs rt ru : Reg) (s : State)
    (h : fitsWord ((s.reg rs).toInt + (s.reg rt).toInt) = false ∨ carryOut (s.reg rs) (s.reg rt) = true) :
    execAddmod rd rs rt ru s = .next (s.faultedWith .overflow) := by
  rw [execAddmod]
  obtain hsigned | hcarry := h
  · rw [hsigned, Bool.not_false, if_pos rfl, raise_eq]
  · rw [if_pos hcarry, raise_eq, ite_self]

/-- A sum that passes both checks goes on to the unsigned modulo. -/
theorem execAddmod_of_fits (rd rs rt ru : Reg) (s : State)
    (hsigned : fitsWord ((s.reg rs).toInt + (s.reg rt).toInt) = true)
    (hcarry : carryOut (s.reg rs) (s.reg rt) = false) :
    execAddmod rd rs rt ru s =
      moduloUnsigned rd (BitVec.ofNat 256 ((s.reg rs).toNat + (s.reg rt).toNat)) (s.reg ru) s := by
  simp [execAddmod, hsigned, hcarry]

/-- Settles O17: ADDMOD is its two checks, then the modulo of the sum, exact for want of a carry; MULMOD is the
modulo of the reduced product. -/
theorem addOrMultiplyThenModulo : Obligations.AddOrMultiplyThenModulo := by
  unfold Obligations.AddOrMultiplyThenModulo
  refine ⟨?addmod, ?mulmod⟩
  case addmod =>
    rintro s rd rs rt ru sum m signed rfl rfl rfl
    refine ⟨decode_slotsPattern_of_formatR4 0x31 .addmod rd rs rt ru fun _ => rfl,
      fun hoverflow => ?overflow, fun hlow hhigh hsum => ?inRange⟩
    case overflow =>
      refine execAddmod_overflow rd rs rt ru s ?_
      rw [← Bool.not_eq_true, fitsWord_iff, carryOut_iff]
      omega
    case inRange =>
      have hcarry : carryOut (s.reg rs) (s.reg rt) = false :=
        Bool.eq_false_iff.mpr fun h => absurd hsum (Nat.not_lt.mpr ((carryOut_iff _ _).mp h))
      exact exec_moduloUnsigned_spec
        (execAddmod_of_fits rd rs rt ru s ((fitsWord_iff _).mpr ⟨hlow, hhigh⟩) hcarry)
        ((BitVec.toNat_ofNat _ _).trans (Nat.mod_eq_of_lt hsum)) rfl
  case mulmod =>
    rintro s rd rs rt ru product m rfl rfl
    exact ⟨decode_slotsPattern_of_formatR4 0x32 .mulmod rd rs rt ru fun _ => rfl,
      exec_moduloUnsigned_spec rfl (BitVec.toNat_ofNat _ _) rfl⟩

/-! ### EXP and EXPI (R175, R178) -/

/-- Settles O18: both rows write the modular power, which Laws/Alu.lean gives for every exponent below 2^256; a
register and an immediate hold no other. -/
theorem exponentiation : Obligations.Exponentiation := by
  unfold Obligations.Exponentiation
  intro s rd rs rt imm w i e hrow
  simp only [List.mem_cons, List.not_mem_nil, or_false, Prod.mk.injEq] at hrow
  obtain ⟨rfl, rfl, rfl⟩ | ⟨rfl, rfl, rfl⟩ := hrow
  case inl => -- EXP
    exact ⟨decode_slotsPattern_of_formatR3 0x33 .exp rd rs rt fun _ => rfl,
      exec_writeBack_spec_of_value rfl (powWord_toNat _ _ (s.reg rt).isLt)⟩
  case inr => -- EXPI
    have hexponent : imm.toNat < 2 ^ 256 := imm.isLt.trans (by norm_num)
    exact ⟨decode_imm24Pattern_of_formatI2 0x36 .expi rd rs imm fun _ => rfl,
      exec_writeBack_spec_of_value rfl (powWord_toNat _ _ hexponent)⟩

end Sys2Proof.Machine

/-! The environment (45_ethereum_env.md): what an instruction of format R1 that writes one word is, from its pattern to
its effect, and the statement about the scalar reads. -/

namespace Sys2Proof.Machine

/-- An instruction of format R1 that ends in the write of a word (R181 to R193): its pattern decodes to it, and the
write is its only effect. -/
theorem decode_and_exec_of_formatR1_writeBack (op : BitVec 8) (k : Reg → Instr) {rd : Reg} {v : Word} {s : State}
    (hop : ∀ w, decodeOpcode op w = formatR1 w k) (hexec : exec (k rd) s = writeBack rd v s) :
    decode (slotsPattern op.toNat rd 0 0 0 0 0) = .ok (k rd) ∧
    ∃ t : State, exec (k rd) s = .next t ∧ WritesReg rd v s t :=
  ⟨decode_slotsPattern_of_formatR1 op k rd hop, exec_writeBack_spec hexec⟩

/-- Settles O19: each of the eleven rows has format R1 and ends in the write of its own field of the environment. -/
theorem environmentScalars : Obligations.EnvironmentScalars := by
  unfold Obligations.EnvironmentScalars
  intro s rd op i v hrow
  simp only [List.mem_cons, List.not_mem_nil, or_false, Prod.mk.injEq] at hrow
  obtain ⟨rfl, rfl, rfl⟩ | ⟨rfl, rfl, rfl⟩ | ⟨rfl, rfl, rfl⟩ | ⟨rfl, rfl, rfl⟩ | ⟨rfl, rfl, rfl⟩ |
    ⟨rfl, rfl, rfl⟩ | ⟨rfl, rfl, rfl⟩ | ⟨rfl, rfl, rfl⟩ | ⟨rfl, rfl, rfl⟩ | ⟨rfl, rfl, rfl⟩ |
    ⟨rfl, rfl, rfl⟩ := hrow
  · exact decode_and_exec_of_formatR1_writeBack 0x80 .gas (fun _ => rfl) rfl
  · exact decode_and_exec_of_formatR1_writeBack 0x8B .gaslimit (fun _ => rfl) rfl
  · exact decode_and_exec_of_formatR1_writeBack 0x8C .gasprice (fun _ => rfl) rfl
  · exact decode_and_exec_of_formatR1_writeBack 0x82 .address (fun _ => rfl) rfl
  · exact decode_and_exec_of_formatR1_writeBack 0x83 .origin (fun _ => rfl) rfl
  · exact decode_and_exec_of_formatR1_writeBack 0x84 .caller (fun _ => rfl) rfl
  · exact decode_and_exec_of_formatR1_writeBack 0x85 .callvalue (fun _ => rfl) rfl
  · exact decode_and_exec_of_formatR1_writeBack 0x87 .coinbase (fun _ => rfl) rfl
  · exact decode_and_exec_of_formatR1_writeBack 0x88 .timestamp (fun _ => rfl) rfl
  · exact decode_and_exec_of_formatR1_writeBack 0x89 .number (fun _ => rfl) rfl
  · exact decode_and_exec_of_formatR1_writeBack 0x8A .difficulty (fun _ => rfl) rfl

end Sys2Proof.Machine

/-! Ends of a run, hashing and logs (46_ethereum_calls_logs.md): how the patterns of formats R5 and R6 are read, what an
instruction that reads a range of memory and then ends the run or appends to the log does, and the three statements. -/

namespace Sys2Proof.Machine

/-! ### Reading a pattern of format R5 or R6 (30_encoding.md R62) -/

theorem formatR5_pack (op : BitVec 8) (rd rs rt ru rv : Reg) (k : Reg → Reg → Reg → Reg → Reg → Instr) :
    formatR5 (pack op (slotOf rd) (slotOf rs) (slotOf rt) (slotOf ru) (slotOf rv) 0#6) k = .ok (k rd rs rt ru rv) := by
  simp [formatR5, unlessReserved]

theorem formatR6_pack (op : BitVec 8) (rd rs rt ru rv rw : Reg)
    (k : Reg → Reg → Reg → Reg → Reg → Reg → Instr) :
    formatR6 (pack op (slotOf rd) (slotOf rs) (slotOf rt) (slotOf ru) (slotOf rv) (slotOf rw)) k =
      .ok (k rd rs rt ru rv rw) := by
  simp [formatR6]

/-- An opcode that the map gives format R5: slot1 to slot5 are the operands and slot6 is 0. -/
theorem decode_slotsPattern_of_formatR5 (op : BitVec 8) (k : Reg → Reg → Reg → Reg → Reg → Instr)
    (rd rs rt ru rv : Reg) (hop : ∀ w, decodeOpcode op w = formatR5 w k) :
    decode (slotsPattern op.toNat rd rs rt ru rv 0) = .ok (k rd rs rt ru rv) := by
  have hpack : slotsPattern op.toNat rd rs rt ru rv 0 =
      pack op (slotOf rd) (slotOf rs) (slotOf rt) (slotOf ru) (slotOf rv) 0#6 :=
    slotsPattern_eq_pack op (slotOf rd) (slotOf rs) (slotOf rt) (slotOf ru) (slotOf rv) 0
  rw [hpack, decode, opcodeOf_pack, hop, formatR5_pack]

/-- An opcode that the map gives format R6: the six slots are the operands. -/
theorem decode_slotsPattern_of_formatR6 (op : BitVec 8) (k : Reg → Reg → Reg → Reg → Reg → Reg → Instr)
    (rd rs rt ru rv rw : Reg) (hop : ∀ w, decodeOpcode op w = formatR6 w k) :
    decode (slotsPattern op.toNat rd rs rt ru rv rw) = .ok (k rd rs rt ru rv rw) := by
  have hpack : slotsPattern op.toNat rd rs rt ru rv rw =
      pack op (slotOf rd) (slotOf rs) (slotOf rt) (slotOf ru) (slotOf rv) (slotOf rw) :=
    slotsPattern_eq_pack op (slotOf rd) (slotOf rs) (slotOf rt) (slotOf ru) (slotOf rv) (slotOf rw)
  rw [hpack, decode, opcodeOf_pack, hop, formatR6_pack]

/-! ### RETURN and REVERT (R215, R217) -/

/-- An instruction that ends the run with a range of memory: the fault of the range check, or the end with its bytes,
and nothing else changed. -/
theorem exec_memRead_halt_spec {i : Instr} {s : State} {ended : List Byte → RunState} {a n : Nat}
    (hexec : exec i s = orRaise (s.memRead a n) s fun data => .next (s.halt (ended data))) :
    (¬s.Fits a n → exec i s = .next (s.faultedWith (.memoryFault a n))) ∧
    (s.Fits a n → ∃ t : State, exec i s = .next t ∧ OnlyEnds (ended (s.bytesAt a n)) s t) := by
  refine ⟨fun hout => ?outside, fun hfits => ⟨_, ?inside, onlyEnds_halt s _⟩⟩
  case outside => rw [hexec, memRead_of_not_fits s a n hout, orRaise_error]
  case inside => rw [hexec, memRead_eq_bytesAt s a n hfits, orRaise_ok]

/-- Settles O26: both rows read the range and end the run with its bytes; they differ in the run state. -/
theorem returnAndRevert : Obligations.ReturnAndRevert := by
  unfold Obligations.ReturnAndRevert
  rintro s rs rt op i ended a n hrow rfl rfl
  simp only [List.mem_cons, List.not_mem_nil, or_false, Prod.mk.injEq] at hrow
  obtain ⟨rfl, rfl, rfl⟩ | ⟨rfl, rfl, rfl⟩ := hrow
  case inl => -- RETURN
    exact ⟨decode_slotsPattern_of_formatR2 0x9B .ret rs rt fun _ => rfl, exec_memRead_halt_spec rfl⟩
  case inr => -- REVERT
    exact ⟨decode_slotsPattern_of_formatR2 0x9D .revert rs rt fun _ => rfl, exec_memRead_halt_spec rfl⟩

/-! ### KECCAK (R218) -/

theorem execKeccak_of_empty (rd rs rt : Reg) (s : State) (h : (s.reg rt).toNat ≤ (s.reg rs).toNat) :
    execKeccak rd rs rt s = .next (s.faultedWith .invalidRange) := by
  rw [execKeccak, if_pos h, raise_eq]

/-- A range with a byte is read and its hash is written. -/
theorem execKeccak_of_nonempty (rd rs rt : Reg) (s : State) (h : (s.reg rs).toNat < (s.reg rt).toNat) :
    execKeccak rd rs rt s =
      orRaise (s.memRead (s.reg rs).toNat ((s.reg rt).toNat - (s.reg rs).toNat)) s fun bytes =>
        writeBack rd (Config.keccak256 bytes) s := by
  rw [execKeccak, if_neg (Nat.not_le.mpr h)]

/-- Settles O27: the empty range faults before memory is read; the count of any other leads to its exclusive end, so
the range check is a check of `x[rt]`. -/
theorem keccakHash : Obligations.KeccakHash := by
  unfold Obligations.KeccakHash
  rintro s rd rs rt a b rfl rfl
  refine ⟨decode_slotsPattern_of_formatR3 0x9E .keccak rd rs rt fun _ => rfl, execKeccak_of_empty rd rs rt s,
    fun hlt hend => ?past, fun hlt hfit => ?inside⟩
  case past =>
    exact exec_memRead_past_end (execKeccak_of_nonempty rd rs rt s hlt) (Nat.sub_pos_of_lt hlt)
      (by rwa [Nat.add_sub_of_le hlt.le])
  case inside =>
    exact exec_load_inside (execKeccak_of_nonempty rd rs rt s hlt) (by rwa [Nat.add_sub_of_le hlt.le])

/-! ### LOG0 to LOG4 (R219 to R224) -/

theorem sameData_pushLog_advance (s : State) (e : LogEntry) : SameData s (s.pushLog e).advance where
  regs := fun _ => rfl
  hiLo := ⟨rfl, rfl⟩
  memory := fun _ => rfl
  env := rfl
  inputs := ⟨rfl, rfl, rfl, rfl, rfl⟩

/-- An instruction that logs a range of memory: the fault of the range check, or one more entry at the end of the log
and the `advance()`. -/
theorem exec_logWith_spec {i : Instr} {s : State} {rs rt : Reg} {topics : List Word}
    (hexec : exec i s = logWith rs rt topics s) :
    (¬s.Fits (s.reg rs).toNat (s.reg rt).toNat →
      exec i s = .next (s.faultedWith (.memoryFault (s.reg rs).toNat (s.reg rt).toNat))) ∧
    (s.Fits (s.reg rs).toNat (s.reg rt).toNat → ∃ t : State, exec i s = .next t ∧
      t.log = s.log ++ [⟨topics, s.bytesAt (s.reg rs).toNat (s.reg rt).toNat⟩] ∧ SameData s t ∧
      t.callstack = s.callstack ∧ t.subs = s.subs ∧ t.returndata = s.returndata ∧ Sequential s t) := by
  rw [hexec]
  exact ⟨logWith_of_not_fits rs rt topics s, fun hfits =>
    ⟨_, logWith_of_fits rs rt topics s hfits, rfl, sameData_pushLog_advance s _, rfl, rfl, rfl,
      sequential_advance (s.pushLog _)⟩⟩

/-- Settles O28: each of the five rows logs the range with its own topic registers, in operand order. -/
theorem logs : Obligations.Logs := by
  unfold Obligations.Logs
  rintro s rs rt ru rv rw rx w i topics a n hrow rfl rfl
  simp only [List.mem_cons, List.not_mem_nil, or_false, Prod.mk.injEq] at hrow
  obtain ⟨rfl, rfl, rfl⟩ | ⟨rfl, rfl, rfl⟩ | ⟨rfl, rfl, rfl⟩ | ⟨rfl, rfl, rfl⟩ | ⟨rfl, rfl, rfl⟩ := hrow
  case inl => -- LOG0
    exact ⟨decode_slotsPattern_of_formatR2 0x9F .log0 rs rt fun _ => rfl, exec_logWith_spec rfl⟩
  case inr.inl => -- LOG1
    exact ⟨decode_slotsPattern_of_formatR3 0xA0 .log1 rs rt ru fun _ => rfl, exec_logWith_spec rfl⟩
  case inr.inr.inl => -- LOG2
    exact ⟨decode_slotsPattern_of_formatR4 0xA1 .log2 rs rt ru rv fun _ => rfl, exec_logWith_spec rfl⟩
  case inr.inr.inr.inl => -- LOG3
    exact ⟨decode_slotsPattern_of_formatR5 0xA2 .log3 rs rt ru rv rw fun _ => rfl, exec_logWith_spec rfl⟩
  case inr.inr.inr.inr => -- LOG4
    exact ⟨decode_slotsPattern_of_formatR6 0xA3 .log4 rs rt ru rv rw rx fun _ => rfl, exec_logWith_spec rfl⟩

end Sys2Proof.Machine

/-! Subroutines, static jumps and locals (47_eip615_subroutines.md): how the patterns of formats I0, V and S are read,
what a read of the jump vector and a push of the call stack do in each case, and the four statements about the family. -/

namespace Sys2Proof.Machine

/-! ### Reading a pattern of formats I0, V and S (30_encoding.md R62) -/

theorem formatI0_packImm24 (op : BitVec 8) (imm : BitVec 24) (k : BitVec 24 → Instr) :
    formatI0 (packImm24 op 0#6 0#6 imm) k = .ok (k imm) := by
  simp [formatI0, unlessReserved]

theorem formatV_packImm24 (op : BitVec 8) (rs : Reg) (n : Slot) (off : BitVec 24)
    (k : Reg → Slot → BitVec 24 → Instr) :
    formatV (packImm24 op (slotOf rs) n off) k = .ok (k rs n off) := by
  simp [formatV]

theorem formatS_pack (op : BitVec 8) (args returns : Slot) (k : Slot → Slot → Instr) :
    formatS (pack op 0#6 0#6 0#6 0#6 args returns) k = .ok (k args returns) := by
  simp [formatS, unlessReserved]

/-- An opcode that the map gives format I0: a 24-bit immediate, and slot1 and slot2 are 0. -/
theorem decode_imm24Pattern_of_formatI0 (op : BitVec 8) (k : BitVec 24 → Instr) (imm : BitVec 24)
    (hop : ∀ w, decodeOpcode op w = formatI0 w k) : decode (imm24Pattern op.toNat 0 0 imm) = .ok (k imm) := by
  have hpack : imm24Pattern op.toNat 0 0 imm = packImm24 op 0#6 0#6 imm := imm24Pattern_eq_packImm24 op 0 0 imm
  rw [hpack, decode, opcodeOf_packImm24, hop, formatI0_packImm24]

/-- An opcode that the map gives format V: a register, the number of entries and a 24-bit offset. -/
theorem decode_imm24Pattern_of_formatV (op : BitVec 8) (k : Reg → Slot → BitVec 24 → Instr) (rs : Reg) (n : Slot)
    (off : BitVec 24) (hop : ∀ w, decodeOpcode op w = formatV w k) :
    decode (imm24Pattern op.toNat rs n.toNat off) = .ok (k rs n off) := by
  have hpack : imm24Pattern op.toNat rs n.toNat off = packImm24 op (slotOf rs) n off :=
    imm24Pattern_eq_packImm24 op (slotOf rs) n off
  rw [hpack, decode, opcodeOf_packImm24, hop, formatV_packImm24]

/-- An opcode that the map gives format S: two counts in slot5 and slot6, and the other slots are 0. -/
theorem decode_slotsPattern_of_formatS (op : BitVec 8) (k : Slot → Slot → Instr) (args returns : Slot)
    (hop : ∀ w, decodeOpcode op w = formatS w k) :
    decode (slotsPattern op.toNat 0 0 0 0 args.toNat returns.toNat) = .ok (k args returns) := by
  have hpack : slotsPattern op.toNat 0 0 0 0 args.toNat returns.toNat = pack op 0#6 0#6 0#6 0#6 args returns :=
    slotsPattern_eq_pack op 0 0 0 0 args returns
  rw [hpack, decode, opcodeOf_pack, hop, formatS_pack]

/-! ### Targets: the code address and the entry of the jump vector (R230, R233) -/

/-- The code address of the family is the number of its 24-bit field, unscaled. -/
theorem codeAddress_eq_of_toNat {imm : BitVec 24} {a : CodeAddr} (h : a.toNat = imm.toNat) : codeAddress imm = a :=
  BitVec.eq_of_toNat_eq ((BitVec.toNat_setWidth_of_le (by norm_num)).trans h.symm)

theorem exec_tableTarget_outside {i : Instr} {s : State} {rs : Reg} {n : Slot} {off : BitVec 24}
    {k : Int} {go : CodeAddr → Result} (hexec : exec i s = orRaise (s.tableTarget rs n off) s go)
    (hk : k = tableIndex (s.reg rs).toNat n.toNat off.toNat) (hout : k < 0 ∨ s.dataVec.lookup k.toNat = none) :
    exec i s = .next (s.faultedWith (.dataRangeFault k)) := by
  rw [hexec, State.tableTarget, ← hk, dataEntry_none s k hout, orRaise_error]

theorem exec_tableTarget_entry {i : Instr} {s : State} {rs : Reg} {n : Slot} {off : BitVec 24}
    {k : Int} {go : CodeAddr → Result} {a : CodeAddr} (hexec : exec i s = orRaise (s.tableTarget rs n off) s go)
    (hk : k = tableIndex (s.reg rs).toNat n.toNat off.toNat) (hnonneg : 0 ≤ k)
    (hentry : s.dataVec.lookup k.toNat = some a) : exec i s = go a := by
  rw [hexec, State.tableTarget, ← hk, dataEntry_some s k a hnonneg hentry, orRaise_ok]

/-! ### JUMPTO, JUMPIF and JUMPV (R231 to R233) -/

theorem exec_jumpif_of_set (imm : BitVec 24) (s : State) (h : s.compare = true) :
    exec (.jumpif imm) s = .next (s.transfer (codeAddress imm)) :=
  congrArg Host.Outcome.next (if_pos h)

theorem exec_jumpif_of_clear (imm : BitVec 24) (s : State) (h : s.compare = false) :
    exec (.jumpif imm) s = .next s.advance :=
  congrArg Host.Outcome.next (if_neg (Bool.eq_false_iff.mp h))

theorem exec_jumpv_eq (rs : Reg) (n : Slot) (off : BitVec 24) (s : State) :
    exec (.jumpv rs n off) s = orRaise (s.tableTarget rs n off) s fun a => .next (s.transfer a) := rfl

/-- Settles O29: JUMPTO is the transfer, JUMPIF the transfer or the advance by the flag, and JUMPV the transfer to the
entry of the jump vector where it has one. -/
theorem staticJumpsAndTable : Obligations.StaticJumpsAndTable := by
  unfold Obligations.StaticJumpsAndTable
  refine ⟨?static, ?table⟩
  case static =>
    intro s imm a ha
    obtain rfl : codeAddress imm = a := codeAddress_eq_of_toNat ha
    exact ⟨decode_imm24Pattern_of_formatI0 0xAA .jumpto imm fun _ => rfl,
      decode_imm24Pattern_of_formatI0 0xAB .jumpif imm fun _ => rfl,
      ⟨_, rfl, onlyTransfers_transfer s _⟩,
      fun hset => ⟨_, exec_jumpif_of_set imm s hset, onlyTransfers_transfer s _⟩,
      fun hclear => ⟨_, exec_jumpif_of_clear imm s hclear, onlyAdvances_advance s⟩⟩
  case table =>
    intro s rs n off k hk
    exact ⟨decode_imm24Pattern_of_formatV 0xAC .jumpv rs n off fun _ => rfl,
      exec_tableTarget_outside (exec_jumpv_eq rs n off s) hk,
      fun a hnonneg hentry =>
        ⟨_, exec_tableTarget_entry (exec_jumpv_eq rs n off s) hk hnonneg hentry, onlyTransfers_transfer s a⟩⟩

/-! ### JUMPSUB, JUMPSUBV and RETURNSUB (R234 to R236) -/

/-- The call stack, `subs` and the two counters, which is all that the family's calls, returns and declarations
write, are no part of the data. -/
theorem sameData_setStacksAndCounters (s : State) (callstack subs : List CodeAddr) (pc npc : CodeAddr) :
    SameData s { s with callstack := callstack, subs := subs, pc := pc, npc := npc } where
  regs := fun _ => rfl
  hiLo := ⟨rfl, rfl⟩
  memory := fun _ => rfl
  env := rfl
  inputs := ⟨rfl, rfl, rfl, rfl, rfl⟩

/-- An instruction that puts another call stack in place and transfers changes nothing else. -/
theorem exec_setCallstack_transfer_spec {i : Instr} {s : State} {stack : List CodeAddr} {a : CodeAddr}
    (hexec : exec i s = .next (State.transfer { s with callstack := stack } a)) :
    ∃ t : State, exec i s = .next t ∧ t.callstack = stack ∧ SameData s t ∧
      t.subs = s.subs ∧ t.log = s.log ∧ t.returndata = s.returndata ∧ TransfersTo a s t :=
  ⟨_, hexec, rfl, sameData_setStacksAndCounters s stack s.subs s.npc a, rfl, rfl, rfl, rfl, rfl, rfl⟩

/-- A call of the subroutine at `a`: the overflow of a full call stack, or the push and the transfer. -/
theorem exec_callSubroutine_spec {i : Instr} {s : State} {a : CodeAddr} (hexec : exec i s = callSubroutine a s) :
    (∀ m, s.params.callstackMax = some m → m ≤ s.callstack.length →
      exec i s = .next (s.faultedWith .callStackOverflow)) ∧
    ((∀ m, s.params.callstackMax = some m → s.callstack.length < m) →
      ∃ t : State, exec i s = .next t ∧ t.callstack = s.npc :: s.callstack ∧ SameData s t ∧
        t.subs = s.subs ∧ t.log = s.log ∧ t.returndata = s.returndata ∧ TransfersTo a s t) :=
  ⟨fun m hmax hfull => hexec.trans (callSubroutine_of_full a s m hmax hfull),
    fun hroom => exec_setCallstack_transfer_spec (hexec.trans (callSubroutine_of_room a s hroom))⟩

theorem exec_jumpsubv_eq (rs : Reg) (n : Slot) (off : BitVec 24) (s : State) :
    exec (.jumpsubv rs n off) s = orRaise (s.tableTarget rs n off) s fun a => callSubroutine a s := rfl

theorem execReturnsub_of_nil (s : State) (h : s.callstack = []) :
    execReturnsub s = .next (s.faultedWith .callStackUnderflow) := by
  rw [execReturnsub, pop_nil s h, orRaise_error]

theorem execReturnsub_of_cons (s : State) (a : CodeAddr) (rest : List CodeAddr) (h : s.callstack = a :: rest) :
    execReturnsub s = .next (State.transfer { s with callstack := rest } a) := by
  rw [execReturnsub, pop_cons s a rest h, orRaise_ok]

/-- Settles O30: JUMPSUB calls its code address; JUMPSUBV calls the entry of the jump vector, and a missing entry is
found before the call stack is looked at; RETURNSUB transfers to what it pops. -/
theorem subroutineCallsAndReturn : Obligations.SubroutineCallsAndReturn := by
  unfold Obligations.SubroutineCallsAndReturn
  refine ⟨?calls, ?returns⟩
  case calls =>
    intro s rs n off imm k w i target hk hrow
    simp only [List.mem_cons, List.not_mem_nil, or_false, Prod.mk.injEq] at hrow
    obtain ⟨rfl, rfl, rfl⟩ | ⟨rfl, rfl, rfl⟩ := hrow
    case inl => -- JUMPSUB
      have hcall : ∀ a, some (BitVec.ofNat 32 imm.toNat) = some a →
          exec (.jumpsub imm) s = callSubroutine a s := by
        rintro a ⟨⟩
        have htarget : codeAddress imm = BitVec.ofNat 32 imm.toNat :=
          codeAddress_eq_of_toNat
            ((BitVec.toNat_ofNat _ _).trans (Nat.mod_eq_of_lt (imm.isLt.trans (by norm_num))))
        exact congrArg (callSubroutine · s) htarget
      exact ⟨decode_imm24Pattern_of_formatI0 0xAD .jumpsub imm fun _ => rfl, nofun,
        fun a m ha => (exec_callSubroutine_spec (hcall a ha)).1 m,
        fun a ha => (exec_callSubroutine_spec (hcall a ha)).2⟩
    case inr => -- JUMPSUBV
      have hcall : ∀ a, (if k < 0 then none else s.dataVec.lookup k.toNat) = some a →
          exec (.jumpsubv rs n off) s = callSubroutine a s := by
        intro a ha
        obtain ⟨hnonneg, hentry⟩ := Option.ite_none_left_eq_some.mp ha
        exact exec_tableTarget_entry (exec_jumpsubv_eq rs n off s) hk (Int.not_lt.mp hnonneg) hentry
      refine ⟨decode_imm24Pattern_of_formatV 0xAE .jumpsubv rs n off fun _ => rfl, fun hnone => ?outside,
        fun a m ha => (exec_callSubroutine_spec (hcall a ha)).1 m,
        fun a ha => (exec_callSubroutine_spec (hcall a ha)).2⟩
      case outside =>
        exact exec_tableTarget_outside (exec_jumpsubv_eq rs n off s) hk
          (or_iff_not_imp_left.mpr fun h => (if_neg h).symm.trans hnone)
  case returns =>
    intro s
    exact ⟨decode_slotsPattern_of_formatN 0xAF .returnsub fun _ => rfl, execReturnsub_of_nil s,
      fun a rest hstack => exec_setCallstack_transfer_spec (execReturnsub_of_cons s a rest hstack)⟩

/-! ### GETLOCAL and PUTLOCAL (R237, R238) -/

/-- Settles O31: GETLOCAL is a load and PUTLOCAL a `store` of 32 bytes, both at the local's address. -/
theorem locals : Obligations.Locals := by
  unfold Obligations.Locals
  intro s r off
  have hlength : (bytesBE (s.reg r).toNat 32).length = 32 := length_bytesBE _ 32
  refine ⟨decode_imm24Pattern_of_formatI1 0xB0 .getlocal r off fun _ => rfl,
    decode_imm24Pattern_of_formatI1 0xB1 .putlocal r off fun _ => rfl,
    BitVec.toNat_ofNat .., fun hend => ⟨?getPast, ?putPast⟩, fun hfit => ⟨?getInside, ?putInside⟩⟩
  case getPast => exact exec_memRead_past_end rfl (by norm_num) hend
  case putPast => exact exec_store_past_end rfl hlength (by norm_num) hend
  case getInside =>
    obtain ⟨t, hnext, heffect⟩ := exec_load_inside (i := .getlocal r off) rfl hfit
    exact ⟨t, _, hnext, heffect, toNat_ofNat_beNat_bytesAt s _⟩
  case putInside =>
    obtain ⟨t, hnext, heffect⟩ := exec_store_inside (i := .putlocal r off) rfl hlength hfit
    exact ⟨t, _, hnext, hlength, bigEndian_bytesBE_word _, heffect⟩

/-! ### BEGINSUB and BEGINDATA (R239, R240) -/

/-- Settles O32: BEGINSUB is the append and the advance, BEGINDATA the fault. -/
theorem declarations : Obligations.Declarations := by
  unfold Obligations.Declarations
  intro s args returns
  refine ⟨decode_slotsPattern_of_formatS 0xB2 .beginsub args returns fun _ => rfl,
    decode_slotsPattern_of_formatN 0xB3 .begindata fun _ => rfl, ?beginsub, raise_eq .dataExecuted s⟩
  case beginsub =>
    exact ⟨_, rfl, rfl, sameData_setStacksAndCounters s s.callstack _ _ _, rfl, rfl, rfl,
      sequential_advance (s.pushSub s.pc)⟩

end Sys2Proof.Machine

/-! SIMD (48_eip616_simd.md): how the patterns of formats C and CX are read, what each stage of a vector instruction
does (the context, the reads, the lanes, the write), the numbers the lane functions give, and the six statements. -/

namespace Sys2Proof.Machine

/-! ### Reading a pattern of formats C and CX (30_encoding.md R62) -/

theorem formatC_pack (op : BitVec 8) (ctx : Slot) (rd rs rt : Reg) (k : Slot → Reg → Reg → Reg → Instr) :
    formatC (pack op ctx (slotOf rd) (slotOf rs) (slotOf rt) 0#6 0#6) k = .ok (k ctx rd rs rt) := by
  simp [formatC, unlessReserved]

theorem formatCX_pack (op : BitVec 8) (ctx idx : Slot) (rd rs : Reg) (k : Slot → Reg → Reg → Slot → Instr) :
    formatCX (pack op ctx (slotOf rd) (slotOf rs) idx 0#6 0#6) k = .ok (k ctx rd rs idx) := by
  simp [formatCX, unlessReserved]

/-- An opcode that the map gives format C: the context, three registers, and slot5 and slot6 are 0. -/
theorem decode_slotsPattern_of_formatC (op : BitVec 8) (k : Slot → Reg → Reg → Reg → Instr) (ctx : Slot)
    (rd rs rt : Reg) (hop : ∀ w, decodeOpcode op w = formatC w k) :
    decode (slotsPattern op.toNat ctx.toNat rd rs rt 0 0) = .ok (k ctx rd rs rt) := by
  have hpack : slotsPattern op.toNat ctx.toNat rd rs rt 0 0 =
      pack op ctx (slotOf rd) (slotOf rs) (slotOf rt) 0#6 0#6 :=
    slotsPattern_eq_pack op ctx (slotOf rd) (slotOf rs) (slotOf rt) 0 0
  rw [hpack, decode, opcodeOf_pack, hop, formatC_pack]

/-- An opcode that the map gives format CX: the context, two registers, a lane index, and slot5 and slot6 are 0. -/
theorem decode_slotsPattern_of_formatCX (op : BitVec 8) (k : Slot → Reg → Reg → Slot → Instr) (ctx idx : Slot)
    (rd rs : Reg) (hop : ∀ w, decodeOpcode op w = formatCX w k) :
    decode (slotsPattern op.toNat ctx.toNat rd rs idx.toNat 0 0) = .ok (k ctx rd rs idx) := by
  have hpack : slotsPattern op.toNat ctx.toNat rd rs idx.toNat 0 0 =
      pack op ctx (slotOf rd) (slotOf rs) idx 0#6 0#6 :=
    slotsPattern_eq_pack op ctx (slotOf rd) (slotOf rs) idx 0 0
  rw [hpack, decode, opcodeOf_pack, hop, formatCX_pack]

/-! ### The context (R250 a) -/

theorem exec_simdShape_undefined {i : Instr} {s : State} {ctx : Slot} {k : SimdShape → Result}
    (hexec : exec i s = orRaise (s.simdShape ctx) s k) (hnone : ∀ sh, ¬s.HasShape ctx sh) :
    exec i s = .next (s.faultedWith .simdFault) := by
  rw [hexec, simdShape_of_no_shape s ctx hnone, orRaise_error]

theorem exec_simdShape_defined {i : Instr} {s : State} {ctx : Slot} {sh : SimdShape} {k : SimdShape → Result}
    (hexec : exec i s = orRaise (s.simdShape ctx) s k) (hshape : s.HasShape ctx sh) : exec i s = k sh := by
  rw [hexec, simdShape_of_hasShape s ctx sh hshape, orRaise_ok]

theorem State.HasShape.laneBits_mod_eight {s : State} {ctx : Slot} {sh : SimdShape} :
    s.HasShape ctx sh → sh.laneBits % 8 = 0
  | ⟨_, hmod, _, _, _⟩ => hmod

theorem State.HasShape.laneBits_pos {s : State} {ctx : Slot} {sh : SimdShape} : s.HasShape ctx sh → 0 < sh.laneBits
  | ⟨_, _, hlow, _, _⟩ => Nat.lt_of_lt_of_le (by norm_num) hlow

theorem State.HasShape.laneBits_le {s : State} {ctx : Slot} {sh : SimdShape} : s.HasShape ctx sh → sh.laneBits ≤ 256
  | ⟨_, _, _, hhigh, _⟩ => hhigh

theorem State.HasShape.laneBytes_pos {s : State} {ctx : Slot} {sh : SimdShape} : s.HasShape ctx sh → 0 < laneBytes sh
  | ⟨_, _, hlow, _, _⟩ => Nat.div_pos hlow (by norm_num)

/-! ### The lanes of a vector (R250 c, d) -/

/-- The lanes of the vector at `addr`: what `VecRead` answers where the vector fits. -/
def State.lanesAt (s : State) (sh : SimdShape) (addr : Nat) : List (BitVec sh.laneBits) :=
  lanesOf sh.laneBits (laneBytes sh) (Memory.readBytes s.mem addr (vectorBytes sh)) sh.laneCount

theorem vecRead_eq_lanesAt (s : State) (sh : SimdShape) (addr : Nat)
    (hfit : addr + vectorBytes sh ≤ s.params.memSize) : s.vecRead sh addr = .ok (s.lanesAt sh addr) :=
  vecRead_of_fits s sh addr hfit

@[simp] theorem length_lanesAt (s : State) (sh : SimdShape) (addr : Nat) :
    (s.lanesAt sh addr).length = sh.laneCount :=
  length_lanesOf ..

theorem toNat_getElem_lanesAt {s : State} {ctx : Slot} {sh : SimdShape} (hshape : s.HasShape ctx sh) (addr : Nat)
    {j : Nat} (hj : j < (s.lanesAt sh addr).length) : (s.lanesAt sh addr)[j].toNat = s.lane sh addr j :=
  toNat_lane s sh addr j hshape.laneBits_mod_eight (by simpa using hj)

/-- The list is a whole vector, and its lane `j` has the number `v j`. -/
def HasLanes (sh : SimdShape) (lanes : List (BitVec sh.laneBits)) (v : Nat → Nat) : Prop :=
  ∃ hlength : lanes.length = sh.laneCount, ∀ j (hj : j < sh.laneCount), (lanes[j]'(by omega)).toNat = v j

/-- A range of one vector fails the range check exactly when it ends past the memory. -/
theorem not_fits_vector {s : State} {ctx : Slot} {sh : SimdShape} (hshape : s.HasShape ctx sh) {addr : Nat}
    (hend : s.params.memSize < addr + vectorBytes sh) : ¬s.Fits addr (vectorBytes sh) :=
  (s.not_fits_iff addr _).mpr ⟨vectorBytes_pos s ctx sh hshape, hend⟩

/-! ### The reads and the write (R250 d) -/

section Stages
variable {i : Instr} {s : State} {ctx : Slot} {sh : SimdShape}

theorem exec_vecRead_past_end {addr : Nat} {k : List (BitVec sh.laneBits) → Result}
    (hexec : exec i s = orRaise (s.vecRead sh addr) s k) (hshape : s.HasShape ctx sh)
    (hend : s.params.memSize < addr + vectorBytes sh) :
    exec i s = .next (s.faultedWith (.memoryFault addr (vectorBytes sh))) := by
  rw [hexec, vecRead_of_not_fits s sh addr (not_fits_vector hshape hend), orRaise_error]

theorem exec_vecRead_inside {addr : Nat} {k : List (BitVec sh.laneBits) → Result}
    (hexec : exec i s = orRaise (s.vecRead sh addr) s k)
    (hfit : addr + vectorBytes sh ≤ s.params.memSize) : exec i s = k (s.lanesAt sh addr) := by
  rw [hexec, vecRead_eq_lanesAt s sh addr hfit, orRaise_ok]

/-- An instruction that ends in the write of a vector: the fault of the range check, or the vector with these lanes as
the only effect. -/
theorem exec_storeLanes_spec {rd : Reg} {r : List (BitVec sh.laneBits)} {v : Nat → Nat}
    (hexec : exec i s = storeLanes (laneBytes sh) rd r s) (hshape : s.HasShape ctx sh) (hlanes : HasLanes sh r v) :
    (s.params.memSize < (s.reg rd).toNat + vectorBytes sh →
      exec i s = .next (s.faultedWith (.memoryFault (s.reg rd).toNat (vectorBytes sh)))) ∧
    ((s.reg rd).toNat + vectorBytes sh ≤ s.params.memSize →
      ∃ t : State, exec i s = .next t ∧ WritesLanes sh (s.reg rd).toNat v s t) := by
  obtain ⟨hlength, hvalue⟩ := hlanes
  rw [hexec]
  exact ⟨fun hend => storeLanes_of_not_fits rd s sh r hlength (not_fits_vector hshape hend), fun hfit =>
    ⟨_, storeLanes_of_fits rd s sh r hlength (.inr hfit),
      writesLanes_writeBytes s sh _ r v hshape.laneBits_mod_eight hlength hvalue⟩⟩

/-- The same after a computation of the lanes that has not faulted. -/
theorem exec_storeLanes_spec_of_ok {rd : Reg} {result : Except Cause (List (BitVec sh.laneBits))} {v : Nat → Nat}
    (hexec : exec i s = orRaise result s fun r => storeLanes (laneBytes sh) rd r s) (hshape : s.HasShape ctx sh)
    (hresult : ∃ r, result = .ok r ∧ HasLanes sh r v) :
    (s.params.memSize < (s.reg rd).toNat + vectorBytes sh →
      exec i s = .next (s.faultedWith (.memoryFault (s.reg rd).toNat (vectorBytes sh)))) ∧
    ((s.reg rd).toNat + vectorBytes sh ≤ s.params.memSize →
      ∃ t : State, exec i s = .next t ∧ WritesLanes sh (s.reg rd).toNat v s t) := by
  obtain ⟨r, rfl, hlanes⟩ := hresult
  exact exec_storeLanes_spec hexec hshape hlanes

/-- An instruction that reads the vector at `a`, then the one at `b`: the fault of the first that does not fit, or what
it does with the lanes of both as they are before it. -/
theorem exec_readTwoVectors_spec {a b : Nat}
    {k : (sh : SimdShape) → List (BitVec sh.laneBits) → List (BitVec sh.laneBits) → Result}
    (hexec : exec i s = orRaise (s.simdShape ctx) s fun sh =>
      orRaise (s.vecRead sh a) s fun x => orRaise (s.vecRead sh b) s fun y => k sh x y)
    (hshape : s.HasShape ctx sh) :
    (s.params.memSize < a + vectorBytes sh →
      exec i s = .next (s.faultedWith (.memoryFault a (vectorBytes sh)))) ∧
    (a + vectorBytes sh ≤ s.params.memSize → s.params.memSize < b + vectorBytes sh →
      exec i s = .next (s.faultedWith (.memoryFault b (vectorBytes sh)))) ∧
    (a + vectorBytes sh ≤ s.params.memSize → b + vectorBytes sh ≤ s.params.memSize →
      exec i s = k sh (s.lanesAt sh a) (s.lanesAt sh b)) := by
  have hfirst := exec_simdShape_defined hexec hshape
  exact ⟨exec_vecRead_past_end hfirst hshape,
    fun ha => exec_vecRead_past_end (exec_vecRead_inside hfirst ha) hshape,
    fun ha hb => exec_vecRead_inside (exec_vecRead_inside hfirst ha) hb⟩

end Stages

/-! ### Lane functions as numbers (R251) -/

/-- On lanes of at least one bit whose second is admitted, the lane function answers the lane with the number that `g`
gives for the width and the two numbers. -/
def LaneGives (f : LaneFn) (admitted : Nat → Prop) (g : Nat → Nat → Nat → Nat) : Prop :=
  ∀ (w : Nat) (a b : BitVec w), 0 < w → admitted b.toNat →
    ∃ r : BitVec w, f w a b = .ok r ∧ r.toNat = g w a.toNat b.toNat

/-- A lane is the lane of its number. -/
theorem ofNat_toNat_self {w : Nat} (a : BitVec w) : BitVec.ofNat w a.toNat = a := by
  rw [BitVec.ofNat_toNat, BitVec.setWidth_eq]

/-- The answer is the lane of its number, which fits the width. -/
theorem LaneGives.eq_ok_ofNat {f : LaneFn} {admitted : Nat → Prop} {g : Nat → Nat → Nat → Nat}
    (hgives : LaneGives f admitted g) {w : Nat} (hw : 0 < w) {a b : BitVec w} (hb : admitted b.toNat) :
    f w a b = .ok (BitVec.ofNat w (g w a.toNat b.toNat)) ∧
      (BitVec.ofNat w (g w a.toNat b.toNat)).toNat = g w a.toNat b.toNat := by
  obtain ⟨r, hok, hr⟩ := hgives w a b hw hb
  rw [← hr, ofNat_toNat_self]
  exact ⟨hok, rfl⟩

/-- A lane function that answers on every lane of the second vector gives a whole vector. -/
theorem zipLanes_lanesAt {s : State} {ctx : Slot} {sh : SimdShape} {f : LaneFn} {admitted : Nat → Prop}
    {g : Nat → Nat → Nat → Nat} (hshape : s.HasShape ctx sh) (hgives : LaneGives f admitted g) (a b : Nat)
    (hall : ∀ j, j < sh.laneCount → admitted (s.lane sh b j)) :
    ∃ r, zipLanes (f sh.laneBits) (s.lanesAt sh a) (s.lanesAt sh b) = .ok r ∧
      HasLanes sh r fun j => g sh.laneBits (s.lane sh a j) (s.lane sh b j) := by
  have hadmitted : ∀ j (hj : j < (s.lanesAt sh b).length), admitted (s.lanesAt sh b)[j].toNat := by
    intro j hj
    rw [toNat_getElem_lanesAt hshape]
    exact hall j (by simpa using hj)
  refine ⟨_, zipLanes_ok _ (fun x y => BitVec.ofNat sh.laneBits (g sh.laneBits x.toNat y.toNat)) _ _
    fun j _ hb => (hgives.eq_ok_ofNat hshape.laneBits_pos (hadmitted j hb)).1, by simp, fun j hj => ?lane⟩
  case lane =>
    rw [List.getElem_zipWith, (hgives.eq_ok_ofNat hshape.laneBits_pos (hadmitted j (by simpa using hj))).2,
      toNat_getElem_lanesAt hshape, toNat_getElem_lanesAt hshape]

/-- The whole of a pairwise instruction whose lane function answers on any two lanes (R251): the fault of the context,
of the first source, of the second and of the destination, in this order, or the vector of the answers. -/
theorem exec_pairwise_spec {i : Instr} {f : LaneFn} {g : Nat → Nat → Nat → Nat} {ctx : Slot} {rd rs rt : Reg}
    {s : State} (hexec : exec i s = pairwise f ctx rd rs rt s) (hgives : LaneGives f (fun _ => True) g) :
    ((∀ sh, ¬s.HasShape ctx sh) → exec i s = .next (s.faultedWith .simdFault)) ∧
    (∀ (sh : SimdShape) (n a b d : Nat), s.HasShape ctx sh → n = sh.laneCount * (sh.laneBits / 8) →
      a = (s.reg rs).toNat → b = (s.reg rt).toNat → d = (s.reg rd).toNat →
      (s.params.memSize < a + n → exec i s = .next (s.faultedWith (.memoryFault a n))) ∧
      (a + n ≤ s.params.memSize → s.params.memSize < b + n →
        exec i s = .next (s.faultedWith (.memoryFault b n))) ∧
      (a + n ≤ s.params.memSize → b + n ≤ s.params.memSize → s.params.memSize < d + n →
        exec i s = .next (s.faultedWith (.memoryFault d n))) ∧
      (a + n ≤ s.params.memSize → b + n ≤ s.params.memSize → d + n ≤ s.params.memSize →
        ∃ t : State, exec i s = .next t ∧
          WritesLanes sh d (fun j => g sh.laneBits (s.lane sh a j) (s.lane sh b j)) s t)) := by
  refine ⟨exec_simdShape_undefined hexec, ?defined⟩
  rintro sh _ _ _ _ hshape rfl rfl rfl rfl
  obtain ⟨hfirst, hsecond, hread⟩ := exec_readTwoVectors_spec hexec hshape
  have hstore := fun ha hb => exec_storeLanes_spec_of_ok (hread ha hb) hshape
    (zipLanes_lanesAt hshape hgives _ _ fun _ _ => trivial)
  exact ⟨hfirst, hsecond, fun ha hb => (hstore ha hb).1, fun ha hb => (hstore ha hb).2⟩

/-! ### The numbers of comparisons and differences (R254, R259 to R263) -/

/-- A comparison's lane has the number 1 or 0: a lane has at least one bit (R251). -/
theorem toNat_oneIf {w : Nat} (hw : 0 < w) {c : Bool} {p : Prop} [Decidable p] (hc : c = true ↔ p) :
    (oneIf c : BitVec w).toNat = if p then 1 else 0 := by
  by_cases hp : p
  · rw [if_pos hp, oneIf, if_pos (hc.mpr hp)]
    exact BitVec.toNat_one hw
  · rw [if_neg hp, oneIf, if_neg (mt hc.mp hp)]
    rfl

/-- The signed comparison, of the lanes rebuilt from their numbers. -/
theorem ltSigned_iff_ofNat {w : Nat} (a b : BitVec w) :
    ltSigned a b = true ↔ (BitVec.ofNat w a.toNat).toInt < (BitVec.ofNat w b.toNat).toInt := by
  rw [ltSigned_iff, ofNat_toNat_self, ofNat_toNat_self]

/-- Equal lanes are lanes with equal numbers. -/
theorem beq_iff_toNat_eq {w : Nat} (a b : BitVec w) : (a == b) = true ↔ a.toNat = b.toNat :=
  beq_iff_eq.trans BitVec.toNat_inj.symm

/-- The difference modulo `2^w`, on numbers that do not go below 0 (R254). -/
theorem toNat_ofInt_sub {w : Nat} (a b : BitVec w) :
    (BitVec.ofInt w (a.toNat - b.toNat)).toNat = (2 ^ w + a.toNat - b.toNat) % 2 ^ w := by
  have hb := b.isLt
  have hcast : ((2 ^ w + a.toNat - b.toNat : Nat) : Int) = a.toNat - b.toNat + 2 ^ w := by
    push_cast [show b.toNat ≤ 2 ^ w + a.toNat by omega]
    ring
  rw [BitVec.toNat_ofInt, ← Int.toNat_natCast ((2 ^ w + a.toNat - b.toNat) % 2 ^ w), Int.natCast_mod, hcast]
  push_cast
  rw [Int.add_emod_right]

/-- Settles O33: each of the eleven rows is a pairwise instruction whose lane function answers on any two lanes. -/
theorem simdPairwise : Obligations.SimdPairwise := by
  unfold Obligations.SimdPairwise
  intro s ctx rd rs rt op i f hrow
  suffices hrows : decode (slotsPattern op ctx.toNat rd rs rt 0 0) = .ok i ∧
      ∃ lane : LaneFn, exec i s = pairwise lane ctx rd rs rt s ∧ LaneGives lane (fun _ => True) f by
    obtain ⟨hdecode, lane, hexec, hgives⟩ := hrows
    exact ⟨hdecode, exec_pairwise_spec hexec hgives⟩
  simp only [List.mem_cons, List.not_mem_nil, or_false, Prod.mk.injEq] at hrow
  obtain ⟨rfl, rfl, rfl⟩ | ⟨rfl, rfl, rfl⟩ | ⟨rfl, rfl, rfl⟩ | ⟨rfl, rfl, rfl⟩ | ⟨rfl, rfl, rfl⟩ |
    ⟨rfl, rfl, rfl⟩ | ⟨rfl, rfl, rfl⟩ | ⟨rfl, rfl, rfl⟩ | ⟨rfl, rfl, rfl⟩ | ⟨rfl, rfl, rfl⟩ |
    ⟨rfl, rfl, rfl⟩ := hrow
  · exact ⟨decode_slotsPattern_of_formatC 0xB4 .simdadd ctx rd rs rt fun _ => rfl, laneAdd, rfl,
      fun _ _ _ _ _ => ⟨_, rfl, BitVec.toNat_ofNat _ _⟩⟩
  · exact ⟨decode_slotsPattern_of_formatC 0xB5 .simdmul ctx rd rs rt fun _ => rfl, laneMul, rfl,
      fun _ _ _ _ _ => ⟨_, rfl, BitVec.toNat_ofNat _ _⟩⟩
  · exact ⟨decode_slotsPattern_of_formatC 0xB6 .simdsub ctx rd rs rt fun _ => rfl, laneSub, rfl,
      fun _ a b _ _ => ⟨_, rfl, toNat_ofInt_sub a b⟩⟩
  · exact ⟨decode_slotsPattern_of_formatC 0xBB .simdlt ctx rd rs rt fun _ => rfl, laneLt, rfl,
      fun _ a b hw _ => ⟨_, rfl, toNat_oneIf hw (ltUnsigned_iff a b)⟩⟩
  · exact ⟨decode_slotsPattern_of_formatC 0xBC .simdgt ctx rd rs rt fun _ => rfl, laneGt, rfl,
      fun _ a b hw _ => ⟨_, rfl, toNat_oneIf hw (ltUnsigned_iff b a)⟩⟩
  · exact ⟨decode_slotsPattern_of_formatC 0xBD .simdslt ctx rd rs rt fun _ => rfl, laneSlt, rfl,
      fun _ a b hw _ => ⟨_, rfl, toNat_oneIf hw (ltSigned_iff_ofNat a b)⟩⟩
  · exact ⟨decode_slotsPattern_of_formatC 0xBE .simdsgt ctx rd rs rt fun _ => rfl, laneSgt, rfl,
      fun _ a b hw _ => ⟨_, rfl, toNat_oneIf hw (ltSigned_iff_ofNat b a)⟩⟩
  · exact ⟨decode_slotsPattern_of_formatC 0xBF .simdeq ctx rd rs rt fun _ => rfl, laneEq, rfl,
      fun _ a b hw _ => ⟨_, rfl, toNat_oneIf hw (beq_iff_toNat_eq a b)⟩⟩
  · exact ⟨decode_slotsPattern_of_formatC 0xC1 .simdand ctx rd rs rt fun _ => rfl, laneAnd, rfl,
      fun _ a b _ _ => ⟨_, rfl, BitVec.toNat_and a b⟩⟩
  · exact ⟨decode_slotsPattern_of_formatC 0xC2 .simdor ctx rd rs rt fun _ => rfl, laneOr, rfl,
      fun _ a b _ _ => ⟨_, rfl, BitVec.toNat_or a b⟩⟩
  · exact ⟨decode_slotsPattern_of_formatC 0xC3 .simdxor ctx rd rs rt fun _ => rfl, laneXor, rfl,
      fun _ a b _ _ => ⟨_, rfl, BitVec.toNat_xor a b⟩⟩

/-- The arithmetic shift of a lane, rebuilt from its number (R271). -/
theorem toNat_shiftRightArithmetic {w : Nat} (v : BitVec w) (n : Nat) :
    (shiftRightArithmetic v n).toNat = (BitVec.ofInt w ((BitVec.ofNat w v.toNat).toInt / 2 ^ n)).toNat := by
  rw [shiftRightArithmetic_eq, ofNat_toNat_self]

/-- Settles O34: each of the five rows is a pairwise instruction whose lane function has the number that Laws/Alu.lean
and Laws/Simd.lean give the shift or the rotate, at every amount. -/
theorem simdShifts : Obligations.SimdShifts := by
  unfold Obligations.SimdShifts
  intro s ctx rd rs rt op i f hrow
  suffices hrows : decode (slotsPattern op ctx.toNat rd rs rt 0 0) = .ok i ∧
      ∃ lane : LaneFn, exec i s = pairwise lane ctx rd rs rt s ∧ LaneGives lane (fun _ => True) f by
    obtain ⟨hdecode, lane, hexec, hgives⟩ := hrows
    exact ⟨hdecode, exec_pairwise_spec hexec hgives⟩
  simp only [List.mem_cons, List.not_mem_nil, or_false, Prod.mk.injEq] at hrow
  obtain ⟨rfl, rfl, rfl⟩ | ⟨rfl, rfl, rfl⟩ | ⟨rfl, rfl, rfl⟩ | ⟨rfl, rfl, rfl⟩ | ⟨rfl, rfl, rfl⟩ := hrow
  · exact ⟨decode_slotsPattern_of_formatC 0xC5 .simdshl ctx rd rs rt fun _ => rfl, laneShl, rfl,
      fun _ a b _ _ => ⟨_, rfl, toNat_shiftLeft a b.toNat⟩⟩
  · exact ⟨decode_slotsPattern_of_formatC 0xC6 .simdshr ctx rd rs rt fun _ => rfl, laneShr, rfl,
      fun _ a b _ _ => ⟨_, rfl, toNat_shiftRightLogical a b.toNat⟩⟩
  · exact ⟨decode_slotsPattern_of_formatC 0xC7 .simdsar ctx rd rs rt fun _ => rfl, laneSar, rfl,
      fun _ a b _ _ => ⟨_, rfl, toNat_shiftRightArithmetic a b.toNat⟩⟩
  · exact ⟨decode_slotsPattern_of_formatC 0xC8 .simdrol ctx rd rs rt fun _ => rfl, laneRol, rfl,
      fun _ a b hw _ => ⟨_, rfl, toNat_rotateLeft hw a b.toNat⟩⟩
  · exact ⟨decode_slotsPattern_of_formatC 0xC9 .simdror ctx rd rs rt fun _ => rfl, laneRor, rfl,
      fun _ a b hw _ => ⟨_, rfl, toNat_rotateRight hw a b.toNat⟩⟩

/-! ### Division: one zero lane faults the whole (R255 to R258) -/

/-- The lane function faults on a zero divisor, whatever the dividend is. -/
def LaneFaultsOnZero (f : LaneFn) : Prop :=
  ∀ (w : Nat) (a b : BitVec w), b.toNat = 0 → f w a b = .error .divideByZero

theorem zipLanes_divideByZero {s : State} {ctx : Slot} {sh : SimdShape} {f : LaneFn} {g : Nat → Nat → Nat → Nat}
    (hshape : s.HasShape ctx sh) (hzeroFaults : LaneFaultsOnZero f) (hgives : LaneGives f (· ≠ 0) g) (a b : Nat)
    (hzero : ∃ j, j < sh.laneCount ∧ s.lane sh b j = 0) :
    zipLanes (f sh.laneBits) (s.lanesAt sh a) (s.lanesAt sh b) = .error .divideByZero := by
  refine zipLanes_error _ _ _ _ (fun x y c herror => ?only) ?zero
  case only =>
    by_cases hy : y.toNat = 0
    · rw [hzeroFaults _ x y hy] at herror
      exact (Except.error.inj herror).symm
    · obtain ⟨r, hok, _⟩ := hgives _ x y hshape.laneBits_pos hy
      exact nomatch hok.symm.trans herror
  case zero =>
    obtain ⟨j, hj, hlane⟩ := hzero
    refine ⟨j, by simpa using hj, by simpa using hj, hzeroFaults _ _ _ ?_⟩
    rwa [toNat_getElem_lanesAt hshape]

/-- The whole of a pairwise division (R251, R255): after the two reads a zero divisor lane faults, before the
destination is looked at. -/
theorem exec_pairwise_division_spec {i : Instr} {f : LaneFn} {g : Nat → Nat → Nat → Nat} {ctx : Slot}
    {rd rs rt : Reg} {s : State} (hexec : exec i s = pairwise f ctx rd rs rt s) (hzeroFaults : LaneFaultsOnZero f)
    (hgives : LaneGives f (· ≠ 0) g) :
    ((∀ sh, ¬s.HasShape ctx sh) → exec i s = .next (s.faultedWith .simdFault)) ∧
    (∀ (sh : SimdShape) (n a b d : Nat), s.HasShape ctx sh → n = sh.laneCount * (sh.laneBits / 8) →
      a = (s.reg rs).toNat → b = (s.reg rt).toNat → d = (s.reg rd).toNat →
      (s.params.memSize < a + n → exec i s = .next (s.faultedWith (.memoryFault a n))) ∧
      (a + n ≤ s.params.memSize → s.params.memSize < b + n →
        exec i s = .next (s.faultedWith (.memoryFault b n))) ∧
      (a + n ≤ s.params.memSize → b + n ≤ s.params.memSize →
        ((∃ j, j < sh.laneCount ∧ s.lane sh b j = 0) →
          exec i s = .next (s.faultedWith .divideByZero)) ∧
        ((∀ j, j < sh.laneCount → s.lane sh b j ≠ 0) → s.params.memSize < d + n →
          exec i s = .next (s.faultedWith (.memoryFault d n))) ∧
        ((∀ j, j < sh.laneCount → s.lane sh b j ≠ 0) → d + n ≤ s.params.memSize →
          ∃ t : State, exec i s = .next t ∧
            WritesLanes sh d (fun j => g sh.laneBits (s.lane sh a j) (s.lane sh b j)) s t))) := by
  refine ⟨exec_simdShape_undefined hexec, ?defined⟩
  rintro sh _ _ _ _ hshape rfl rfl rfl rfl
  obtain ⟨hfirst, hsecond, hread⟩ := exec_readTwoVectors_spec hexec hshape
  refine ⟨hfirst, hsecond, fun hfirstFits hsecondFits => ?lanes⟩
  have hlanes := hread hfirstFits hsecondFits
  have hstore := fun hall =>
    exec_storeLanes_spec_of_ok hlanes hshape (zipLanes_lanesAt hshape hgives _ _ hall)
  exact ⟨fun hzero => by rw [hlanes, zipLanes_divideByZero hshape hzeroFaults hgives _ _ hzero, orRaise_error],
    fun hall => (hstore hall).1, fun hall => (hstore hall).2⟩

/-- The signed quotient re-encoded is the truncating quotient of the lanes; `MIN / -1` wraps in both. -/
theorem toNat_signedQuotient {w : Nat} (a b : BitVec w) :
    (signedQuotient a.toInt b.toInt : BitVec w).toNat =
      ((BitVec.ofNat w a.toNat).sdiv (BitVec.ofNat w b.toNat)).toNat := by
  have hsdiv : signedQuotient a.toInt b.toInt = a.sdiv b :=
    BitVec.eq_of_toInt_eq (by rw [signedQuotient, BitVec.toInt_ofInt, BitVec.toInt_sdiv])
  rw [hsdiv, ofNat_toNat_self, ofNat_toNat_self]

/-- The signed remainder re-encoded is the remainder of the lanes with the sign of the dividend. -/
theorem toNat_signedRemainder {w : Nat} (a b : BitVec w) :
    (signedRemainder a.toInt b.toInt : BitVec w).toNat =
      ((BitVec.ofNat w a.toNat).srem (BitVec.ofNat w b.toNat)).toNat := by
  rw [signedRemainder, ← BitVec.toInt_srem, BitVec.ofInt_toInt, ofNat_toNat_self, ofNat_toNat_self]

theorem toInt_eq_zero_iff {w : Nat} (b : BitVec w) : b.toInt = 0 ↔ b.toNat = 0 := by
  rw [← BitVec.toInt_zero (w := w), BitVec.toInt_inj, ← BitVec.toNat_inj]
  rfl

/-- Settles O35: the four rows are pairwise divisions. -/
theorem simdDivision : Obligations.SimdDivision := by
  unfold Obligations.SimdDivision
  intro s ctx rd rs rt op i f hrow
  suffices hrows : decode (slotsPattern op ctx.toNat rd rs rt 0 0) = .ok i ∧
      ∃ lane : LaneFn, exec i s = pairwise lane ctx rd rs rt s ∧ LaneFaultsOnZero lane ∧ LaneGives lane (· ≠ 0) f by
    obtain ⟨hdecode, lane, hexec, hzeroFaults, hgives⟩ := hrows
    exact ⟨hdecode, exec_pairwise_division_spec hexec hzeroFaults hgives⟩
  simp only [List.mem_cons, List.not_mem_nil, or_false, Prod.mk.injEq] at hrow
  obtain ⟨rfl, rfl, rfl⟩ | ⟨rfl, rfl, rfl⟩ | ⟨rfl, rfl, rfl⟩ | ⟨rfl, rfl, rfl⟩ := hrow
  · exact ⟨decode_slotsPattern_of_formatC 0xB7 .simddiv ctx rd rs rt fun _ => rfl, laneDiv, rfl,
      fun _ _ _ hb => if_pos hb, fun _ a b _ hb => ⟨_, if_neg hb, toNat_unsignedQuotient a b⟩⟩
  · exact ⟨decode_slotsPattern_of_formatC 0xB8 .simdsdiv ctx rd rs rt fun _ => rfl, laneSdiv, rfl,
      fun _ _ b hb => if_pos ((toInt_eq_zero_iff b).mpr hb), fun _ a b _ hb =>
        ⟨_, if_neg (mt (toInt_eq_zero_iff b).mp hb), toNat_signedQuotient a b⟩⟩
  · exact ⟨decode_slotsPattern_of_formatC 0xB9 .simdmod ctx rd rs rt fun _ => rfl, laneMod, rfl,
      fun _ _ _ hb => if_pos hb, fun _ a b _ hb => ⟨_, if_neg hb, toNat_unsignedRemainder a b⟩⟩
  · exact ⟨decode_slotsPattern_of_formatC 0xBA .simdsmod ctx rd rs rt fun _ => rfl, laneSmod, rfl,
      fun _ _ b hb => if_pos ((toInt_eq_zero_iff b).mpr hb), fun _ a b _ hb =>
        ⟨_, if_neg (mt (toInt_eq_zero_iff b).mp hb), toNat_signedRemainder a b⟩⟩

/-! ### The unary instructions (R264, R268) -/

/-- A unary instruction: the fault of the context, of the source and of the destination, in this order, or the vector
of the lane function's lanes; `rt` is no part of it. -/
theorem exec_unary_spec {i : Instr} {f : (w : Nat) → BitVec w → BitVec w} {g : Nat → Nat → Nat} {ctx : Slot}
    {rd rs : Reg} {s : State} (hexec : exec i s = unary f ctx rd rs s)
    (hgives : ∀ (w : Nat) (a : BitVec w), 0 < w → (f w a).toNat = g w a.toNat) :
    ((∀ sh, ¬s.HasShape ctx sh) → exec i s = .next (s.faultedWith .simdFault)) ∧
    (∀ (sh : SimdShape) (n a d : Nat), s.HasShape ctx sh → n = sh.laneCount * (sh.laneBits / 8) →
      a = (s.reg rs).toNat → d = (s.reg rd).toNat →
      (s.params.memSize < a + n → exec i s = .next (s.faultedWith (.memoryFault a n))) ∧
      (a + n ≤ s.params.memSize → s.params.memSize < d + n →
        exec i s = .next (s.faultedWith (.memoryFault d n))) ∧
      (a + n ≤ s.params.memSize → d + n ≤ s.params.memSize →
        ∃ t : State, exec i s = .next t ∧ WritesLanes sh d (fun j => g sh.laneBits (s.lane sh a j)) s t)) := by
  refine ⟨exec_simdShape_undefined hexec, ?defined⟩
  rintro sh _ _ _ hshape rfl rfl rfl
  have hread := exec_simdShape_defined hexec hshape
  have hlanes : HasLanes sh ((s.lanesAt sh (s.reg rs).toNat).map (f sh.laneBits)) fun j =>
      g sh.laneBits (s.lane sh (s.reg rs).toNat j) :=
    ⟨by simp, fun j hj => by rw [List.getElem_map, hgives _ _ hshape.laneBits_pos, toNat_getElem_lanesAt hshape]⟩
  exact ⟨exec_vecRead_past_end hread hshape,
    fun ha => (exec_storeLanes_spec (exec_vecRead_inside hread ha) hshape hlanes).1,
    fun ha => (exec_storeLanes_spec (exec_vecRead_inside hread ha) hshape hlanes).2⟩

/-- Settles O36: both rows are unary instructions, and `rt` stays free. -/
theorem simdUnary : Obligations.SimdUnary := by
  unfold Obligations.SimdUnary
  intro s ctx rd rs rt op i f hrow
  suffices hrows : decode (slotsPattern op ctx.toNat rd rs rt 0 0) = .ok i ∧
      ∃ lane : (w : Nat) → BitVec w → BitVec w, exec i s = unary lane ctx rd rs s ∧
        ∀ (w : Nat) (a : BitVec w), 0 < w → (lane w a).toNat = f w a.toNat by
    obtain ⟨hdecode, lane, hexec, hgives⟩ := hrows
    exact ⟨hdecode, exec_unary_spec hexec hgives⟩
  simp only [List.mem_cons, List.not_mem_nil, or_false, Prod.mk.injEq] at hrow
  obtain ⟨rfl, rfl, rfl⟩ | ⟨rfl, rfl, rfl⟩ := hrow
  · exact ⟨decode_slotsPattern_of_formatC 0xC0 .simdiszero ctx rd rs rt fun _ => rfl, _, rfl,
      fun _ a hw => toNat_oneIf hw (beq_iff_toNat_eq a 0)⟩
  · exact ⟨decode_slotsPattern_of_formatC 0xC4 .simdnot ctx rd rs rt fun _ => rfl, _, rfl,
      fun _ _ _ => BitVec.toNat_not⟩

/-! ### SIMDINDEX (R274) -/

/-- The index is checked before the lane is read. -/
theorem exec_simdindex_out_of_range {s : State} {ctx idx : Slot} {sh : SimdShape} {rd rs : Reg}
    (hshape : s.HasShape ctx sh) (hidx : sh.laneCount ≤ idx.toNat) :
    exec (.simdindex ctx rd rs idx) s = .next (s.faultedWith .simdFault) :=
  (exec_simdShape_defined rfl hshape).trans (if_pos hidx)

/-- An index in range goes on to a load of that one lane. -/
theorem exec_simdindex_in_range {s : State} {ctx idx : Slot} {sh : SimdShape} {rd rs : Reg}
    (hshape : s.HasShape ctx sh) (hidx : idx.toNat < sh.laneCount) :
    exec (.simdindex ctx rd rs idx) s =
      orRaise (s.memRead ((s.reg rs).toNat + idx.toNat * laneBytes sh) (laneBytes sh)) s fun bytes =>
        writeBack rd (BitVec.ofNat 256 (beNat bytes)) s :=
  (exec_simdShape_defined rfl hshape).trans (if_neg (Nat.not_le.mpr hidx))

/-- A lane has at most 256 bits, so a word holds it without cutting it off. -/
theorem toNat_ofNat_beNat_lane {s : State} {ctx : Slot} {sh : SimdShape} (hshape : s.HasShape ctx sh) (a i : Nat) :
    (BitVec.ofNat 256 (beNat (s.bytesAt (a + i * laneBytes sh) (laneBytes sh)))).toNat = s.lane sh a i := by
  have hlt : s.lane sh a i < 2 ^ 256 :=
    (lane_lt s ctx sh a i hshape).trans_le (Nat.pow_le_pow_right (by norm_num) hshape.laneBits_le)
  rw [← bigEndian_eq]
  exact (BitVec.toNat_ofNat _ _).trans (Nat.mod_eq_of_lt hlt)

/-- Settles O37: the index check, then a load of the one lane it names. -/
theorem simdIndex : Obligations.SimdIndex := by
  unfold Obligations.SimdIndex
  intro s ctx idx rd rs
  refine ⟨decode_slotsPattern_of_formatCX 0xCA .simdindex ctx idx rd rs fun _ => rfl,
    exec_simdShape_undefined rfl, ?defined⟩
  rintro sh _ hshape rfl
  refine ⟨exec_simdindex_out_of_range hshape,
    fun hidx => exec_memRead_past_end (exec_simdindex_in_range hshape hidx) hshape.laneBytes_pos,
    fun hidx hfit => ?inside⟩
  case inside =>
    obtain ⟨t, hnext, heffect⟩ := exec_load_inside (exec_simdindex_in_range hshape hidx) hfit
    exact ⟨t, _, hnext, toNat_ofNat_beNat_lane hshape _ _, heffect⟩

/-! ### SIMDSHUFFLE (R275) -/

theorem permute_lanesAt {s : State} {ctx : Slot} {sh : SimdShape} (hshape : s.HasShape ctx sh) (a m : Nat)
    (hall : ∀ j, j < sh.laneCount → s.lane sh m j < sh.laneCount) :
    ∃ r, permute (s.lanesAt sh a) (s.lanesAt sh m) = .ok r ∧
      HasLanes sh r fun j => s.lane sh a (s.lane sh m j) := by
  have hmask : ∀ j (hj : j < (s.lanesAt sh m).length), (s.lanesAt sh m)[j].toNat < (s.lanesAt sh a).length := by
    intro j hj
    rw [toNat_getElem_lanesAt hshape, length_lanesAt]
    exact hall j (by simpa using hj)
  obtain ⟨r, hok, hlength, hlane⟩ := permute_ok (s.lanesAt sh a) (s.lanesAt sh m) hmask
  refine ⟨r, hok, by simpa using hlength, fun j hj => ?_⟩
  rw [hlane j (by simpa using hj), toNat_getElem_lanesAt hshape, toNat_getElem_lanesAt hshape]

theorem permute_simdFault {s : State} {ctx : Slot} {sh : SimdShape} (hshape : s.HasShape ctx sh) (a m : Nat)
    (hout : ∃ j, j < sh.laneCount ∧ sh.laneCount ≤ s.lane sh m j) :
    permute (s.lanesAt sh a) (s.lanesAt sh m) = .error .simdFault := by
  obtain ⟨j, hj, hlane⟩ := hout
  refine permute_error _ _ ⟨j, by simpa using hj, ?_⟩
  rwa [toNat_getElem_lanesAt hshape, length_lanesAt]

theorem exec_simdshuffle_eq (ctx : Slot) (rd rs rt : Reg) (s : State) :
    exec (.simdshuffle ctx rd rs rt) s =
      orRaise (s.simdShape ctx) s fun sh => orRaise (s.vecRead sh (s.reg rs).toNat) s fun a =>
        orRaise (s.vecRead sh (s.reg rt).toNat) s fun m =>
          orRaise (permute a m) s fun r => storeLanes (laneBytes sh) rd r s := rfl

/-- Settles O38: after the two reads the mask decides, before the destination is looked at. -/
theorem simdShuffle : Obligations.SimdShuffle := by
  unfold Obligations.SimdShuffle
  intro s ctx rd rs rt
  have hexec := exec_simdshuffle_eq ctx rd rs rt s
  refine ⟨decode_slotsPattern_of_formatC 0xCC .simdshuffle ctx rd rs rt fun _ => rfl,
    exec_simdShape_undefined hexec, ?defined⟩
  rintro sh _ _ _ _ hshape rfl rfl rfl rfl
  obtain ⟨hfirst, hsecond, hread⟩ := exec_readTwoVectors_spec hexec hshape
  refine ⟨hfirst, hsecond, fun hfirstFits hsecondFits => ?lanes⟩
  have hlanes := hread hfirstFits hsecondFits
  have hstore := fun hall => exec_storeLanes_spec_of_ok hlanes hshape (permute_lanesAt hshape _ _ hall)
  exact ⟨fun hout => by rw [hlanes, permute_simdFault hshape _ _ hout, orRaise_error],
    fun hall => (hstore hall).1, fun hall => (hstore hall).2⟩

end Sys2Proof.Machine

/-! Decoding and encoding (30_encoding.md): the reader of each format and the packing it inverts, in both directions,
and the statements about all instructions, all patterns and the reserved ones. -/

namespace Sys2Proof

open Laws (tableOpcode)

/-! ### The fields make up the pattern (R61, R63) -/

theorem pack_fields {op : BitVec 8} {w : Pattern} (hop : opcodeOf w = op) :
    pack op (slot1 w) (slot2 w) (slot3 w) (slot4 w) (slot5 w) (slot6 w) = w := by
  subst hop
  apply BitVec.eq_of_toNat_eq
  simp only [toNat_pack, opcodeOf, slot1, slot2, slot3, slot4, slot5, slot6, toNat_field]
  omega

theorem packImm24_fields {op : BitVec 8} {w : Pattern} (hop : opcodeOf w = op) :
    packImm24 op (slot1 w) (slot2 w) (imm24Of w) = w := by
  subst hop
  apply BitVec.eq_of_toNat_eq
  simp only [toNat_packImm24, opcodeOf, slot1, slot2, imm24Of, toNat_field]
  omega

theorem packImm36_fields {op : BitVec 8} {w : Pattern} (hop : opcodeOf w = op) :
    packImm36 op (imm36Of w) = w := by
  subst hop
  apply BitVec.eq_of_toNat_eq
  simp only [toNat_packImm36, opcodeOf, imm36Of, toNat_field]
  omega

theorem packImm18_fields {op : BitVec 8} {w : Pattern} (hop : opcodeOf w = op) :
    packImm18 op (slot1 w) (slot2 w) (slot3 w) (imm18Of w) = w := by
  subst hop
  apply BitVec.eq_of_toNat_eq
  simp only [toNat_packImm18, opcodeOf, slot1, slot2, slot3, imm18Of, toNat_field]
  omega

/-! ### An unused slot that is zero -/

/-- A zero 24-bit field is four zero slots. -/
theorem packImm24_zero (op : BitVec 8) (s1 s2 : Slot) : packImm24 op s1 s2 0#24 = pack op s1 s2 0#6 0#6 0#6 0#6 := by
  apply BitVec.eq_of_toNat_eq
  simp only [toNat_packImm24, toNat_pack, BitVec.toNat_ofNat]
  omega

/-- A zero 36-bit field is six zero slots. -/
theorem packImm36_zero (op : BitVec 8) : packImm36 op 0#36 = pack op 0#6 0#6 0#6 0#6 0#6 0#6 := by
  apply BitVec.eq_of_toNat_eq
  simp only [toNat_packImm36, toNat_pack, BitVec.toNat_ofNat]
  omega

/-- A zero 18-bit field is three zero slots. -/
theorem packImm18_zero (op : BitVec 8) (s1 s2 s3 : Slot) :
    packImm18 op s1 s2 s3 0#18 = pack op s1 s2 s3 0#6 0#6 0#6 := by
  apply BitVec.eq_of_toNat_eq
  simp only [toNat_packImm18, toNat_pack, BitVec.toNat_ofNat]
  omega

/-- Slot 4 is the two 3-bit fields of CHECKPROOF. -/
theorem proofCountOf_append_proofIndexOf (w : Pattern) : proofCountOf w ++ proofIndexOf w = slot4 w := by
  apply BitVec.eq_of_toNat_eq
  simp only [toNat_append_eq_add, proofCountOf, proofIndexOf, slot4, toNat_field]
  omega

/-- A template answers its instruction exactly when the slots it does not use are zero (R68). -/
theorem unlessReserved_eq_ok_iff (unusedAreZero : Bool) (i j : Instr) :
    unlessReserved unusedAreZero i = .ok j ↔ unusedAreZero = true ∧ i = j := by
  cases unusedAreZero <;> simp [unlessReserved]

/-! ### From the instruction to its pattern: what a reader answers determines the pattern -/

section Readers
variable {op : BitVec 8} {w : Pattern} {i : Instr}

theorem encode_of_formatN {j : Instr} (hop : opcodeOf w = op) (h : formatN w j = .ok i)
    (hencode : encode j = pack op 0 0 0 0 0 0) : encode i = w := by
  obtain ⟨hzero, rfl⟩ := (unlessReserved_eq_ok_iff _ _ _).mp h
  have hw := packImm36_fields hop
  rw [eq_of_beq hzero] at hw
  rw [hencode, ← hw]
  exact (packImm36_zero op).symm

theorem encode_of_formatR1 {k : Reg → Instr} (hop : opcodeOf w = op) (h : formatR1 w k = .ok i)
    (hencode : ∀ a, encode (k a) = pack op (slotOf a) 0 0 0 0 0) : encode i = w := by
  obtain ⟨hzero, rfl⟩ := (unlessReserved_eq_ok_iff _ _ _).mp h
  obtain ⟨h2, himm⟩ := Bool.and_eq_true_iff.mp hzero
  have hw := packImm24_fields hop
  rw [eq_of_beq h2, eq_of_beq himm] at hw
  rw [hencode, slotOf_regOf]
  exact (packImm24_zero op _ 0).symm.trans hw

theorem encode_of_formatR2 {k : Reg → Reg → Instr} (hop : opcodeOf w = op) (h : formatR2 w k = .ok i)
    (hencode : ∀ a b, encode (k a b) = pack op (slotOf a) (slotOf b) 0 0 0 0) : encode i = w := by
  obtain ⟨hzero, rfl⟩ := (unlessReserved_eq_ok_iff _ _ _).mp h
  have hw := packImm24_fields hop
  rw [eq_of_beq hzero] at hw
  rw [hencode, slotOf_regOf, slotOf_regOf]
  exact (packImm24_zero op _ _).symm.trans hw

theorem encode_of_formatR3 {k : Reg → Reg → Reg → Instr} (hop : opcodeOf w = op) (h : formatR3 w k = .ok i)
    (hencode : ∀ a b c, encode (k a b c) = pack op (slotOf a) (slotOf b) (slotOf c) 0 0 0) : encode i = w := by
  obtain ⟨hzero, rfl⟩ := (unlessReserved_eq_ok_iff _ _ _).mp h
  have hw := packImm18_fields hop
  rw [eq_of_beq hzero] at hw
  rw [hencode, slotOf_regOf, slotOf_regOf, slotOf_regOf]
  exact (packImm18_zero op _ _ _).symm.trans hw

theorem encode_of_formatR4 {k : Reg → Reg → Reg → Reg → Instr} (hop : opcodeOf w = op)
    (h : formatR4 w k = .ok i)
    (hencode : ∀ a b c d, encode (k a b c d) = pack op (slotOf a) (slotOf b) (slotOf c) (slotOf d) 0 0) :
    encode i = w := by
  obtain ⟨hzero, rfl⟩ := (unlessReserved_eq_ok_iff _ _ _).mp h
  obtain ⟨h5, h6⟩ := Bool.and_eq_true_iff.mp hzero
  have hw := pack_fields hop
  rw [eq_of_beq h5, eq_of_beq h6] at hw
  exact (hencode ..).trans hw

theorem encode_of_formatR5 {k : Reg → Reg → Reg → Reg → Reg → Instr} (hop : opcodeOf w = op)
    (h : formatR5 w k = .ok i)
    (hencode : ∀ a b c d e,
      encode (k a b c d e) = pack op (slotOf a) (slotOf b) (slotOf c) (slotOf d) (slotOf e) 0) :
    encode i = w := by
  obtain ⟨h6, rfl⟩ := (unlessReserved_eq_ok_iff _ _ _).mp h
  have hw := pack_fields hop
  rw [eq_of_beq h6] at hw
  exact (hencode ..).trans hw

theorem encode_of_formatR6 {k : Reg → Reg → Reg → Reg → Reg → Reg → Instr} (hop : opcodeOf w = op)
    (h : formatR6 w k = .ok i)
    (hencode : ∀ a b c d e f,
      encode (k a b c d e f) = pack op (slotOf a) (slotOf b) (slotOf c) (slotOf d) (slotOf e) (slotOf f)) :
    encode i = w := by
  obtain rfl := Except.ok.inj h
  exact (hencode ..).trans (pack_fields hop)

theorem encode_of_formatI2 {k : Reg → Reg → BitVec 24 → Instr} (hop : opcodeOf w = op) (h : formatI2 w k = .ok i)
    (hencode : ∀ a b imm, encode (k a b imm) = packImm24 op (slotOf a) (slotOf b) imm) : encode i = w := by
  obtain rfl := Except.ok.inj h
  exact (hencode ..).trans (packImm24_fields hop)

theorem encode_of_formatI1 {k : Reg → BitVec 24 → Instr} (hop : opcodeOf w = op) (h : formatI1 w k = .ok i)
    (hencode : ∀ a imm, encode (k a imm) = packImm24 op (slotOf a) 0 imm) : encode i = w := by
  obtain ⟨h2, rfl⟩ := (unlessReserved_eq_ok_iff _ _ _).mp h
  have hw := packImm24_fields hop
  rw [eq_of_beq h2] at hw
  exact (hencode ..).trans hw

theorem encode_of_formatI0 {k : BitVec 24 → Instr} (hop : opcodeOf w = op) (h : formatI0 w k = .ok i)
    (hencode : ∀ imm, encode (k imm) = packImm24 op 0 0 imm) : encode i = w := by
  obtain ⟨hzero, rfl⟩ := (unlessReserved_eq_ok_iff _ _ _).mp h
  obtain ⟨h1, h2⟩ := Bool.and_eq_true_iff.mp hzero
  have hw := packImm24_fields hop
  rw [eq_of_beq h1, eq_of_beq h2] at hw
  exact (hencode ..).trans hw

theorem encode_of_formatJ {k : BitVec 36 → Instr} (hop : opcodeOf w = op) (h : formatJ w k = .ok i)
    (hencode : ∀ target, encode (k target) = packImm36 op target) : encode i = w := by
  obtain rfl := Except.ok.inj h
  exact (hencode ..).trans (packImm36_fields hop)

theorem encode_of_formatV {k : Reg → Slot → BitVec 24 → Instr} (hop : opcodeOf w = op) (h : formatV w k = .ok i)
    (hencode : ∀ a n off, encode (k a n off) = packImm24 op (slotOf a) n off) : encode i = w := by
  obtain rfl := Except.ok.inj h
  exact (hencode ..).trans (packImm24_fields hop)

theorem encode_of_formatS {k : Slot → Slot → Instr} (hop : opcodeOf w = op) (h : formatS w k = .ok i)
    (hencode : ∀ args returns, encode (k args returns) = pack op 0 0 0 0 args returns) : encode i = w := by
  obtain ⟨hzero, rfl⟩ := (unlessReserved_eq_ok_iff _ _ _).mp h
  simp only [Bool.and_eq_true, beq_iff_eq] at hzero
  obtain ⟨⟨⟨h1, h2⟩, h3⟩, h4⟩ := hzero
  have hw := pack_fields hop
  rw [h1, h2, h3, h4] at hw
  exact (hencode ..).trans hw

theorem encode_of_formatC {k : Slot → Reg → Reg → Reg → Instr} (hop : opcodeOf w = op) (h : formatC w k = .ok i)
    (hencode : ∀ ctx a b c, encode (k ctx a b c) = pack op ctx (slotOf a) (slotOf b) (slotOf c) 0 0) :
    encode i = w := by
  obtain ⟨hzero, rfl⟩ := (unlessReserved_eq_ok_iff _ _ _).mp h
  obtain ⟨h5, h6⟩ := Bool.and_eq_true_iff.mp hzero
  have hw := pack_fields hop
  rw [eq_of_beq h5, eq_of_beq h6] at hw
  exact (hencode ..).trans hw

theorem encode_of_formatCX {k : Slot → Reg → Reg → Slot → Instr} (hop : opcodeOf w = op)
    (h : formatCX w k = .ok i)
    (hencode : ∀ ctx a b idx, encode (k ctx a b idx) = pack op ctx (slotOf a) (slotOf b) idx 0 0) :
    encode i = w := by
  obtain ⟨hzero, rfl⟩ := (unlessReserved_eq_ok_iff _ _ _).mp h
  obtain ⟨h5, h6⟩ := Bool.and_eq_true_iff.mp hzero
  have hw := pack_fields hop
  rw [eq_of_beq h5, eq_of_beq h6] at hw
  exact (hencode ..).trans hw

theorem encode_of_formatP {k : Reg → Reg → Reg → BitVec 3 → BitVec 3 → Instr} (hop : opcodeOf w = op)
    (h : formatP w k = .ok i)
    (hencode : ∀ a b c n index,
      encode (k a b c n index) = pack op (slotOf a) (slotOf b) (slotOf c) (n ++ index) 0 0) :
    encode i = w := by
  obtain ⟨hzero, rfl⟩ := (unlessReserved_eq_ok_iff _ _ _).mp h
  obtain ⟨h5, h6⟩ := Bool.and_eq_true_iff.mp hzero
  have hw := pack_fields hop
  rw [eq_of_beq h5, eq_of_beq h6] at hw
  rw [hencode, proofCountOf_append_proofIndexOf]
  exact hw

theorem encode_of_formatT {k : Reg → Reg → Reg → BitVec 18 → Instr} (hop : opcodeOf w = op)
    (h : formatT w k = .ok i)
    (hencode : ∀ a b c imm, encode (k a b c imm) = packImm18 op (slotOf a) (slotOf b) (slotOf c) imm) :
    encode i = w := by
  obtain rfl := Except.ok.inj h
  exact (hencode ..).trans (packImm18_fields hop)

end Readers

/-! ### The opcode alone selects the instruction (R64, R66) -/

theorem opcodeOf_encode (i : Instr) : opcodeOf (encode i) = tableOpcode i := by
  cases i
  case addi | addiu | andi | beq | bgez | bgezal | bgtz | blez | bltz | bltzal | bne | lb | lui | lw | ori | sb |
      sll | slti | sltiu | sra | srl | sw | xori | modi | smodi | expi | jumpto | jumpif | jumpv | jumpsub |
      jumpsubv | getlocal | putlocal =>
    exact opcodeOf_packImm24 ..
  case j | jal => exact opcodeOf_packImm36 ..
  case checktemplate => exact opcodeOf_packImm18 ..
  all_goals exact opcodeOf_pack ..

/-- The readers of the formats with no unused slot, in the form of the others. -/
theorem unlessReserved_true (i : Instr) : unlessReserved true i = .ok i := rfl

/-- Row by row, the opcode map answers instructions of that row's opcode only. -/
theorem tableOpcode_of_decodeOpcode (op : BitVec 8) (w : Pattern) (i : Instr) :
    decodeOpcode op w = .ok i → tableOpcode i = op := by
  fun_cases decodeOpcode op w
  case case128 => exact nofun -- the default: unassigned
  all_goals
    simp only [formatN, formatR1, formatR2, formatR3, formatR4, formatR5, formatR6, formatI0, formatI1,
      formatI2, formatJ, formatV, formatS, formatC, formatCX, formatP, formatT, ← unlessReserved_true]
    intro h
    obtain ⟨-, rfl⟩ := (unlessReserved_eq_ok_iff _ _ _).mp h
    rfl

theorem tableOpcode_of_decode {w : Pattern} {i : Instr} (h : decode w = .ok i) : tableOpcode i = opcodeOf w :=
  tableOpcode_of_decodeOpcode _ w i h

/-! ### From the instruction to its pattern and back -/

theorem formatP_pack (op : BitVec 8) (rd rs rt : Reg) (n index : BitVec 3)
    (k : Reg → Reg → Reg → BitVec 3 → BitVec 3 → Instr) :
    formatP (pack op (slotOf rd) (slotOf rs) (slotOf rt) (n ++ index) 0#6 0#6) k = .ok (k rd rs rt n index) := by
  simp [formatP, unlessReserved]

theorem formatT_packImm18 (op : BitVec 8) (rd rs rt : Reg) (imm : BitVec 18)
    (k : Reg → Reg → Reg → BitVec 18 → Instr) :
    formatT (packImm18 op (slotOf rd) (slotOf rs) (slotOf rt) imm) k = .ok (k rd rs rt imm) := by
  simp [formatT]

/-- Settles O40: the opcode of the pattern selects the instruction's row, whose reader reads its operands back. -/
theorem decodeEncode : Obligations.DecodeEncode := by
  unfold Obligations.DecodeEncode
  intro i
  rw [decode, opcodeOf_encode]
  cases i
  case stop | noop | syscall | returnsub | begindata => exact Machine.formatN_pack ..
  case jr | mfhi | mflo | gas | address | origin | caller | callvalue | coinbase | timestamp | number | difficulty |
      gaslimit | gasprice | calldatasize | codesize | returndatasize =>
    exact Machine.formatR1_pack ..
  case div | divu | balance | blockhash | calldataload | extcodesize | extcodehash | call | callcode | delegatecall |
      staticcall | ret | revert | log0 =>
    exact Machine.formatR2_pack ..
  case add | addu | and | mult | multu | or | sllv | slt | sltu | srlv | srav | sub | subu | xor | mod | smod | exp |
      calldatacopy | codecopy | returndatacopy | keccak | log1 =>
    exact Machine.formatR3_pack ..
  case addmod | mulmod | extcodecopy | log2 => exact Machine.formatR4_pack ..
  case create2 | log3 => exact Machine.formatR5_pack ..
  case log4 => exact Machine.formatR6_pack ..
  case addi | addiu | andi | beq | bne | lb | lw | ori | sb | sll | slti | sltiu | sra | srl | sw | xori | modi |
      smodi | expi =>
    exact Machine.formatI2_packImm24 ..
  case bgez | bgezal | bgtz | blez | bltz | bltzal | lui | getlocal | putlocal => exact Machine.formatI1_packImm24 ..
  case jumpto | jumpif | jumpsub => exact Machine.formatI0_packImm24 ..
  case j | jal => exact Machine.formatJ_packImm36 ..
  case jumpv | jumpsubv => exact Machine.formatV_packImm24 ..
  case beginsub => exact Machine.formatS_pack ..
  case simdindex => exact Machine.formatCX_pack ..
  case checkproof => exact formatP_pack ..
  case checktemplate => exact formatT_packImm18 ..
  all_goals exact Machine.formatC_pack .. -- the other SIMD instructions

/-- Settles O41: the opcode of a pattern that decodes is that of its instruction, and the reader of that row has read
every other bit. -/
theorem encodeDecode : Obligations.EncodeDecode := by
  unfold Obligations.EncodeDecode
  intro w i h
  have hop : opcodeOf w = tableOpcode i := (tableOpcode_of_decode h).symm
  rw [decode, hop] at h
  cases i
  case stop | noop | syscall | returnsub | begindata => exact encode_of_formatN hop h rfl
  case jr | mfhi | mflo | gas | address | origin | caller | callvalue | coinbase | timestamp | number | difficulty |
      gaslimit | gasprice | calldatasize | codesize | returndatasize =>
    exact encode_of_formatR1 hop h fun _ => rfl
  case div | divu | balance | blockhash | calldataload | extcodesize | extcodehash | call | callcode | delegatecall |
      staticcall | ret | revert | log0 =>
    exact encode_of_formatR2 hop h fun _ _ => rfl
  case add | addu | and | mult | multu | or | sllv | slt | sltu | srlv | srav | sub | subu | xor | mod | smod | exp |
      calldatacopy | codecopy | returndatacopy | keccak | log1 =>
    exact encode_of_formatR3 hop h fun _ _ _ => rfl
  case addmod | mulmod | extcodecopy | log2 => exact encode_of_formatR4 hop h fun _ _ _ _ => rfl
  case create2 | log3 => exact encode_of_formatR5 hop h fun _ _ _ _ _ => rfl
  case log4 => exact encode_of_formatR6 hop h fun _ _ _ _ _ _ => rfl
  case addi | addiu | andi | beq | bne | lb | lw | ori | sb | sll | slti | sltiu | sra | srl | sw | xori | modi |
      smodi | expi =>
    exact encode_of_formatI2 hop h fun _ _ _ => rfl
  case bgez | bgezal | bgtz | blez | bltz | bltzal | lui | getlocal | putlocal =>
    exact encode_of_formatI1 hop h fun _ _ => rfl
  case jumpto | jumpif | jumpsub => exact encode_of_formatI0 hop h fun _ => rfl
  case j | jal => exact encode_of_formatJ hop h fun _ => rfl
  case jumpv | jumpsubv => exact encode_of_formatV hop h fun _ _ _ => rfl
  case beginsub => exact encode_of_formatS hop h fun _ _ => rfl
  case simdindex => exact encode_of_formatCX hop h fun _ _ _ _ => rfl
  case checkproof => exact encode_of_formatP hop h fun _ _ _ _ _ => rfl
  case checktemplate => exact encode_of_formatT hop h fun _ _ _ _ => rfl
  all_goals exact encode_of_formatC hop h fun _ _ _ _ => rfl -- the other SIMD instructions

/-! ### Reserved patterns (R68) and the patterns the spec writes out -/

/-- The opcode of an instruction is assigned, so no pattern that carries it has an unassigned one. -/
theorem decode_ne_unassigned_of_opcodeOf_encode {w : Pattern} {i : Instr} (h : opcodeOf (encode i) = opcodeOf w) :
    decode w ≠ .error .unassignedOpcode := by
  intro hw
  have hi : decode (encode i) = .error .unassignedOpcode := by
    rwa [decode_eq_unassigned_iff, ← toNat_opcodeOf, h, toNat_opcodeOf, ← decode_eq_unassigned_iff]
  rw [decodeEncode i] at hi
  cases hi

namespace Machine

theorem step_of_decode_reserved (s : State) (w : Pattern) (hdecode : decode w = .error .reservedSlots)
    (hrun : s.runState = .running) (hfetch : s.fetch = some w) : step s = .refused .reservedPattern := by
  simp only [step, hrun, hfetch, hdecode]

/-- Settles O43: the pattern decodes to no instruction, whose pattern it would be, and its opcode is assigned. -/
theorem reservedPatterns : Obligations.ReservedPatterns := by
  unfold Obligations.ReservedPatterns
  rintro s w ⟨i, hassigned⟩ hnone
  have hdecode : decode w = .error .reservedSlots := by
    match h : decode w with
    | .ok j => exact absurd (encodeDecode w j h) (hnone j)
    | .error .unassignedOpcode => exact absurd h (decode_ne_unassigned_of_opcodeOf_encode hassigned)
    | .error .reservedSlots => rfl
  exact ⟨hdecode, step_of_decode_reserved s w hdecode⟩

end Machine

/-- Settles O44: twelve closed patterns, which the decoder is run on. -/
theorem sampleWords : Obligations.SampleWords := by
  unfold Obligations.SampleWords
  decide

end Sys2Proof

/-! What an instruction can do to the state, said once for all 127 (10_state.md section 8): it faults, ends the run, or
writes the parts of the state that its opcode may write and goes on at `nPC`. -/

namespace Sys2Proof.Machine

open Laws (tableOpcode)

/-! ### The opcodes that may write a part of the state beyond the registers and the counters -/

/-- DIV, DIVU and the MOD family (10_state.md R11). -/
abbrev WritesHiLoOpcode (op : Nat) : Prop := op ∈ [0x0F, 0x10, 0x2F, 0x30, 0x31, 0x32, 0x34, 0x35]

/-- SB, SW, the copies, PUTLOCAL and the SIMD instructions but SIMDINDEX (R23). -/
abbrev StoresOpcode (op : Nat) : Prop :=
  op ∈ [0x1E, 0x2B, 0x8F, 0x91, 0x94, 0x96, 0xB1, 0xCC] ∨ (0xB4 ≤ op ∧ op ≤ 0xC9)

/-- JUMPSUB, JUMPSUBV and RETURNSUB (R20). -/
abbrev WritesCallstackOpcode (op : Nat) : Prop := op ∈ [0xAD, 0xAE, 0xAF]

/-- LOG0 to LOG4 (R24). -/
abbrev LogsOpcode (op : Nat) : Prop := op ∈ [0x9F, 0xA0, 0xA1, 0xA2, 0xA3]

/-- The instructions that consult the call oracle (46_ethereum_calls_logs.md R210). -/
inductive MessageCall : Instr → Prop
  | call (rd rs : Reg) : MessageCall (.call rd rs)
  | callcode (rd rs : Reg) : MessageCall (.callcode rd rs)
  | delegatecall (rd rs : Reg) : MessageCall (.delegatecall rd rs)
  | staticcall (rd rs : Reg) : MessageCall (.staticcall rd rs)

theorem MessageCall.opcode_mem {i : Instr} (h : MessageCall i) :
    (tableOpcode i).toNat ∈ [0x97, 0x98, 0x99, 0x9A] := by
  cases h <;> exact of_decide_eq_true rfl

/-! ### What an instruction writes -/

/-- Contents that are canonical and inside data memory if the contents before are (20_memory.md R40). -/
def State.AdmitsMemory (s : State) (m : Memory) : Prop :=
  (Memory.wf s.mem = true → Memory.wf m = true) ∧
  (s.mem.all (fun cell => decide (cell.1 < s.params.memSize)) = true →
    m.all (fun cell => decide (cell.1 < s.params.memSize)) = true)

/-- A call stack that is not deeper than a finite `CALLSTACK_MAX` if the one before is not (R20). -/
def State.AdmitsCallstack (s : State) (stack : List CodeAddr) : Prop :=
  ∀ n, s.params.callstackMax = some n → s.callstack.length ≤ n → stack.length ≤ n

/-- The state before the counters move, after the writes of the instruction: one part of the state for each kind of
instruction that has one, by its opcode, and the registers. -/
inductive Writes (i : Instr) (s : State) : State → Prop
  | registers (regs : Vector Word 64) : Writes i s { s with regs := regs }
  | hiLo (hop : WritesHiLoOpcode (tableOpcode i).toNat) (regs : Vector Word 64) (hi lo : Word) :
      Writes i s { s with regs := regs, hi := hi, lo := lo }
  | memory (hop : StoresOpcode (tableOpcode i).toNat) {m : Memory} (hm : s.AdmitsMemory m) :
      Writes i s { s with mem := m }
  | callstack (hop : WritesCallstackOpcode (tableOpcode i).toNat) {stack : List CodeAddr}
      (hstack : s.AdmitsCallstack stack) : Writes i s { s with callstack := stack }
  | subs (hop : (tableOpcode i).toNat = 0xB2) (a : CodeAddr) : Writes i s (s.pushSub a)
  | log (hop : LogsOpcode (tableOpcode i).toNat) (e : LogEntry) (htopics : e.topics.length ≤ 4) :
      Writes i s (s.pushLog e)
  | messageCall (hcall : MessageCall i) (regs : Vector Word 64) {m : Memory} (hm : s.AdmitsMemory m)
      (returndata : List Byte) (gas : Word) (balance : Table Word) (count : Nat) :
      Writes i s { s with
        regs := regs, mem := m, returndata := returndata,
        env := { s.env with gas := gas, balance := balance }, freeCount := count }
  | create (hcreate : ∃ rd rs rt ru rv, i = .create2 rd rs rt ru rv) (regs : Vector Word 64)
      (returndata : List Byte) (gas : Word) (balance : Table Word) (count : Nat) :
      Writes i s { s with
        regs := regs, returndata := returndata,
        env := { s.env with gas := gas, balance := balance }, freeCount := count }

/-- Every state an instruction can leave. -/
inductive Effect (i : Instr) (s : State) : State → Prop
  /-- A fault (60_exceptions.md R302). -/
  | faults (c : Cause) : Effect i s (s.faultedWith c)
  /-- The end of the run by STOP, RETURN or REVERT. -/
  | ends {r : RunState} (hrunning : r ≠ .running) (hfaulted : ∀ c, r ≠ .faulted c) : Effect i s (s.halt r)
  /-- The machine goes on at `nPC`, the writes done. -/
  | goesOn {u : State} (hwrites : Writes i s u) (npc : CodeAddr) : Effect i s { u with pc := s.npc, npc := npc }

/-- Every next state that this result of the instruction answers is an effect of it. -/
structure Yields (i : Instr) (s : State) (r : Result) : Prop where
  effect : ∀ t, r = .next t → Effect i s t

/-! ### The effects of the shared operations -/

section Operations
variable {i : Instr} {s : State}

theorem Effect.yields {t : State} (h : Effect i s t) : Yields i s (.next t) := by
  refine ⟨?_⟩
  rintro _ ⟨⟩
  exact h

theorem yields_raise (c : Cause) : Yields i s (raise c s) := (Effect.faults c).yields

/-- The check raises its fault, or what follows it yields. -/
theorem yields_orRaise {α : Type} {r : Except Cause α} {k : α → Result} (h : ∀ v, r = .ok v → Yields i s (k v)) :
    Yields i s (orRaise r s k) := by
  cases hr : r with
  | ok v => exact h v hr
  | error c => exact yields_raise c

theorem yields_ite {c : Prop} [Decidable c] {a b : Result} (ha : c → Yields i s a) (hb : ¬c → Yields i s b) :
    Yields i s (if c then a else b) := by
  split
  · exact ha ‹_›
  · exact hb ‹_›

/-! Registers, `hi` and `lo`, and the counters. -/

theorem yields_writeBack (rd : Reg) (v : Word) : Yields i s (writeBack rd v s) :=
  (Effect.goesOn (.registers (s.setReg rd v).regs) (s.advance).npc).yields

theorem yields_writeChecked (rd : Reg) (r : Int) : Yields i s (writeChecked rd r s) :=
  yields_ite (fun _ => yields_writeBack ..) fun _ => yields_raise _

theorem yields_writeHiLo (hop : WritesHiLoOpcode (tableOpcode i).toNat) (hi lo : Word) :
    Yields i s (writeHiLo hi lo s) :=
  (Effect.goesOn (.hiLo hop s.regs hi lo) (s.advance).npc).yields

theorem yields_writeModulo (hop : WritesHiLoOpcode (tableOpcode i).toNat) (rd : Reg) (q r : Word) :
    Yields i s (writeModulo rd q r s) :=
  (Effect.goesOn (.hiLo hop (s.setReg rd r).regs r q) (s.advance).npc).yields

theorem yields_moduloUnsigned (hop : WritesHiLoOpcode (tableOpcode i).toNat) (rd : Reg) (t m : Word) :
    Yields i s (moduloUnsigned rd t m s) :=
  yields_ite (fun _ => yields_raise _) fun _ => yields_writeModulo hop ..

theorem yields_moduloSigned (hop : WritesHiLoOpcode (tableOpcode i).toNat) (rd : Reg) (a m : Int) :
    Yields i s (moduloSigned rd a m s) :=
  yields_ite (fun _ => yields_raise _) fun _ => yields_writeModulo hop ..

theorem effect_transfer (a : CodeAddr) : Effect i s (s.transfer a) := .goesOn (.registers s.regs) a

theorem effect_advance : Effect i s s.advance := effect_transfer _

theorem effect_setReg_transfer (rd : Reg) (v : Word) (a : CodeAddr) : Effect i s ((s.setReg rd v).transfer a) :=
  .goesOn (.registers (s.setReg rd v).regs) a

theorem yields_branchIf (c : Bool) (off : BitVec 24) : Yields i s (branchIf c off s) := by
  cases c
  · exact effect_advance.yields
  · exact (effect_transfer _).yields

theorem yields_branchLinkIf (c : Bool) (off : BitVec 24) : Yields i s (branchLinkIf c off s) := by
  cases c
  · exact effect_advance.yields
  · exact (effect_setReg_transfer ..).yields

/-! Data memory. -/

theorem admitsMemory_writeBytes {addr : Nat} {bytes : List Byte} (h : s.Fits addr bytes.length) :
    s.AdmitsMemory (Memory.writeBytes s.mem addr bytes) :=
  ⟨Memory.wf_writeBytes s.mem addr bytes,
    Memory.writeBytes_below s.mem addr s.params.memSize bytes (h.imp_left List.length_eq_zero_iff.mp)⟩

theorem admitsMemory_writeCells {allowed : Nat → Bool} (h : ∀ a, allowed a = true → a < s.params.memSize)
    (cells : List Host.Cell) : s.AdmitsMemory (Memory.writeCells s.mem allowed cells) :=
  ⟨Memory.wf_writeCells s.mem allowed cells, Memory.writeCells_below s.mem allowed cells s.params.memSize h⟩

theorem yields_store (hop : StoresOpcode (tableOpcode i).toNat) (addr : Nat) (bytes : List Byte) :
    Yields i s (store addr bytes s) := by
  refine ⟨fun t h => ?_⟩
  obtain ⟨hfits, rfl⟩ | ⟨-, rfl⟩ := store_eq_next addr bytes s t h
  · exact .goesOn (.memory hop (admitsMemory_writeBytes hfits)) (s.advance).npc
  · exact .faults _

theorem yields_copyToMemory (hop : StoresOpcode (tableOpcode i).toNat) (bytes : List Byte) (d o n : Nat) :
    Yields i s (copyToMemory bytes d o n s) :=
  yields_orRaise fun _ _ => yields_store hop ..

theorem yields_pairwise (hop : StoresOpcode (tableOpcode i).toNat) (f : LaneFn) (ctx : Slot) (rd rs rt : Reg) :
    Yields i s (pairwise f ctx rd rs rt s) :=
  yields_orRaise fun _ _ => yields_orRaise fun _ _ => yields_orRaise fun _ _ => yields_orRaise fun _ _ =>
    yields_store hop ..

theorem yields_unary (hop : StoresOpcode (tableOpcode i).toNat) (f : (w : Nat) → BitVec w → BitVec w) (ctx : Slot)
    (rd rs : Reg) : Yields i s (unary f ctx rd rs s) :=
  yields_orRaise fun _ _ => yields_orRaise fun _ _ => yields_store hop ..

/-! The call stack and the log. -/

theorem admitsCallstack_of_push {a : CodeAddr} {t : State} (h : s.push a = .ok t) :
    s.AdmitsCallstack (a :: s.callstack) ∧ t = { s with callstack := a :: s.callstack } := by
  unfold State.push at h
  split at h
  case h_1 hmax => exact ⟨fun n hn => absurd (hmax.symm.trans hn) nofun, (Except.ok.inj h).symm⟩
  case h_2 n hmax =>
    split at h
    case isTrue hroom =>
      refine ⟨fun m hm _ => ?_, (Except.ok.inj h).symm⟩
      obtain rfl : n = m := Option.some.inj (hmax.symm.trans hm)
      exact hroom
    case isFalse => cases h

theorem yields_callSubroutine (hop : WritesCallstackOpcode (tableOpcode i).toNat) (target : CodeAddr) :
    Yields i s (callSubroutine target s) := by
  refine yields_orRaise fun t ht => ?_
  obtain ⟨hadmits, rfl⟩ := admitsCallstack_of_push ht
  exact (Effect.goesOn (.callstack hop hadmits) target).yields

theorem admitsCallstack_of_pop {a : CodeAddr} {t : State} (h : s.pop = .ok (a, t)) :
    ∃ rest, s.AdmitsCallstack rest ∧ t = { s with callstack := rest } := by
  unfold State.pop at h
  split at h
  case h_1 => cases h
  case h_2 b rest hstack =>
    cases h
    refine ⟨rest, fun n _ hn => ?_, rfl⟩
    rw [hstack] at hn
    exact Nat.le_of_succ_le hn

theorem yields_execReturnsub (hop : WritesCallstackOpcode (tableOpcode i).toNat) : Yields i s (execReturnsub s) := by
  refine yields_orRaise fun (a, t) h => ?_
  obtain ⟨rest, hadmits, rfl⟩ := admitsCallstack_of_pop h
  exact (Effect.goesOn (.callstack hop hadmits) a).yields

theorem yields_logWith (hop : LogsOpcode (tableOpcode i).toNat) (rs rt : Reg) {topics : List Word}
    (htopics : topics.length ≤ 4) : Yields i s (logWith rs rt topics s) :=
  yields_orRaise fun data _ => (Effect.goesOn (.log hop ⟨topics, data⟩ htopics) (s.advance).npc).yields

/-! The oracles. -/

theorem yields_finishCall (hcall : MessageCall i) (rd : Reg) {allowed : Nat → Bool}
    (h : ∀ a, allowed a = true → a < s.params.memSize) (ans : CallAnswer) :
    Yields i s (finishCall rd allowed ans s) :=
  (Effect.goesOn
    (.messageCall hcall (s.setReg rd (if ans.ok then 1 else 0)).regs (admitsMemory_writeCells h ans.writes)
      ans.returndata ans.gas ans.balance (s.freeCount + 1))
    (s.advance).npc).yields

/-- An output range that passes its check lies inside data memory. -/
theorem lt_memSize_of_inOutput {b : CallBlock} (h : s.inMemory b.outOffset b.outSize = true) (a : Nat)
    (ha : b.inOutput a = true) : a < s.params.memSize := by
  rw [inMemory_iff, State.Fits] at h
  simp only [CallBlock.inOutput, Bool.and_eq_true, decide_eq_true_eq] at ha
  omega

theorem yields_messageCall (hcall : MessageCall i) (kind : CallKind) (rd rs : Reg) :
    Yields i s (messageCall kind rd rs s) :=
  yields_orRaise fun _ _ => yields_orRaise fun _ _ =>
    yields_ite (fun hout => yields_finishCall hcall rd (lt_memSize_of_inOutput hout) _) fun _ => yields_raise _

theorem yields_openCall (hcall : MessageCall i) (kind : CallKind) (rd rs : Reg) :
    Yields i s (openCall kind rd rs s) :=
  yields_finishCall hcall rd (fun _ => of_decide_eq_true) _

end Operations

/-! ### The effect of every instruction -/

theorem yields_exec (i : Instr) (s : State) : Yields i s (exec i s) := by
  cases i
  -- integer arithmetic, logic, shifts, compare; the environment; the template
  case add | addi | mult | sub => exact yields_writeChecked ..
  case addiu | addu | multu | subu | mfhi | mflo | and | andi | or | ori | xor | xori | lui | sll | sllv | srl | srlv |
      sra | srav | slt | slti | sltiu | sltu | exp | expi | gas | gaslimit | gasprice | address | origin | caller |
      callvalue | coinbase | timestamp | number | difficulty | balance | calldatasize | codesize | extcodesize |
      extcodehash | returndatasize | checktemplate =>
    exact yields_writeBack ..
  case div | divu =>
    exact yields_ite (fun _ => yields_raise _) fun _ => yields_writeHiLo (of_decide_eq_true rfl) ..
  case mod | modi | mulmod => exact yields_moduloUnsigned (of_decide_eq_true rfl) ..
  case smod | smodi => exact yields_moduloSigned (of_decide_eq_true rfl) ..
  case addmod =>
    exact yields_ite (fun _ => yields_raise _) fun _ => yields_ite (fun _ => yields_raise _) fun _ =>
      yields_moduloUnsigned (of_decide_eq_true rfl) ..
  -- control transfer and the ends of a run
  case beq | bne | bgez | bgtz | blez | bltz => exact yields_branchIf ..
  case bgezal | bltzal => exact yields_branchLinkIf ..
  case j | jr | jumpto => exact (effect_transfer _).yields
  case jal => exact (effect_setReg_transfer ..).yields
  case noop | syscall => exact effect_advance.yields
  case stop => exact (Effect.ends (r := .stopped) nofun nofun).yields
  case ret => exact yields_orRaise fun data _ => (Effect.ends (r := .returned data) nofun nofun).yields
  case revert => exact yields_orRaise fun data _ => (Effect.ends (r := .reverted data) nofun nofun).yields
  -- reads of memory and of call data
  case lb | lw | getlocal | blockhash | calldataload | checkproof =>
    exact yields_orRaise fun _ _ => yields_writeBack ..
  case keccak => exact yields_ite (fun _ => yields_raise _) fun _ => yields_orRaise fun _ _ => yields_writeBack ..
  case simdindex =>
    exact yields_orRaise fun _ _ => yields_ite (fun _ => yields_raise _) fun _ =>
      yields_orRaise fun _ _ => yields_writeBack ..
  -- stores, copies and vectors
  case sb | sw | putlocal => exact yields_store (of_decide_eq_true rfl) ..
  case calldatacopy | codecopy | extcodecopy | returndatacopy => exact yields_copyToMemory (of_decide_eq_true rfl) ..
  case simdiszero => exact yields_unary (of_decide_eq_true rfl) (fun _ a => oneIf (a == 0)) ..
  case simdnot => exact yields_unary (of_decide_eq_true rfl) (fun _ a => ~~~a) ..
  case simdshuffle =>
    exact yields_orRaise fun _ _ => yields_orRaise fun _ _ => yields_orRaise fun _ _ => yields_orRaise fun _ _ =>
      yields_store (of_decide_eq_true rfl) ..
  -- calls, creation, logs
  case call => exact yields_messageCall (.call ..) ..
  case callcode => exact yields_messageCall (.callcode ..) ..
  case delegatecall => exact yields_openCall (.delegatecall ..) ..
  case staticcall => exact yields_openCall (.staticcall ..) ..
  case create2 rd rs rt ru rv =>
    exact (Effect.goesOn (.create ⟨rd, rs, rt, ru, rv, rfl⟩ _ _ _ _ _) _).yields
  case log0 | log1 | log2 | log3 | log4 => exact yields_logWith (of_decide_eq_true rfl) _ _ (of_decide_eq_true rfl)
  -- subroutines
  case jumpif => exact Effect.yields (by split <;> exact effect_transfer _)
  case jumpv => exact yields_orRaise fun a _ => (effect_transfer a).yields
  case jumpsub => exact yields_callSubroutine (of_decide_eq_true rfl) _
  case jumpsubv => exact yields_orRaise fun a _ => yields_callSubroutine (of_decide_eq_true rfl) a
  case returnsub => exact yields_execReturnsub (of_decide_eq_true rfl)
  case beginsub => exact (Effect.goesOn (.subs rfl s.pc) (s.advance).npc).yields
  case begindata => exact yields_raise _
  -- the other SIMD instructions
  all_goals exact yields_pairwise (of_decide_eq_true rfl) ..

theorem effect_of_exec {i : Instr} {s t : State} (h : exec i s = .next t) : Effect i s t :=
  (yields_exec i s).effect t h

end Sys2Proof.Machine

/-! The step and the whole machine (10_state.md, 60_exceptions.md): what a step can do, and the statements about every
step, each read off the effect of the instruction. -/

namespace Sys2Proof.Machine

open Laws (tableOpcode)

/-! ### What a step can do (10_state.md R13) -/

theorem step_of_not_running {s : State} (h : s.runState ≠ .running) : step s = .fault .notRunning := by
  unfold step
  split
  case h_1 hrun => exact absurd hrun h
  all_goals rfl

theorem step_of_fetch_none {s : State} (hrun : s.runState = .running) (hfetch : s.fetch = none) :
    step s = .next (s.faultedWith .fetchFault) := by
  simp only [step, hrun, hfetch, raise_eq]

theorem step_of_decode {s : State} {w : Pattern} {i : Instr} (hrun : s.runState = .running)
    (hfetch : s.fetch = some w) (hdecode : decode w = .ok i) : step s = exec i s := by
  simp only [step, hrun, hfetch, hdecode]

/-- A step that answers a next state is one of a RUNNING machine: a fault of its own, or an effect of the instruction
it fetched. -/
theorem step_eq_next {s t : State} (h : step s = .next t) :
    s.runState = .running ∧
      ((∃ c, t = s.faultedWith c) ∨ ∃ w i, s.fetch = some w ∧ decode w = .ok i ∧ Effect i s t) := by
  by_cases hrun : s.runState = .running
  case neg => exact absurd ((step_of_not_running hrun).symm.trans h) nofun
  refine ⟨hrun, ?_⟩
  match hfetch : s.fetch with
  | none =>
    exact .inl ⟨_, (Host.Outcome.next.inj ((step_of_fetch_none hrun hfetch).symm.trans h)).symm⟩
  | some w =>
    match hdecode : decode w with
    | .ok i => exact .inr ⟨w, i, rfl, hdecode, effect_of_exec ((step_of_decode hrun hfetch hdecode).symm.trans h)⟩
    | .error .unassignedOpcode =>
      exact .inl ⟨_,
        (Host.Outcome.next.inj ((step_of_decode_unassigned s w hdecode hrun hfetch).symm.trans h)).symm⟩
    | .error .reservedSlots =>
      exact absurd ((step_of_decode_reserved s w hdecode hrun hfetch).symm.trans h) nofun

/-! ### The frame of an effect -/

section Frame
variable {i : Instr} {s t u : State}

theorem Writes.runState (h : Writes i s u) : u.runState = s.runState := by cases h <;> rfl

theorem Writes.sameInputs (h : Writes i s u) : SameInputs s u := by cases h <;> exact ⟨rfl, rfl, rfl, rfl, rfl⟩

theorem Writes.sameEnvBut (h : Writes i s u) : SameEnvBut s u := by cases h <;> rfl

theorem Effect.sameInputs (h : Effect i s t) : SameInputs s t := by
  cases h with
  | faults => exact ⟨rfl, rfl, rfl, rfl, rfl⟩
  | ends => exact ⟨rfl, rfl, rfl, rfl, rfl⟩
  | goesOn hwrites => exact hwrites.sameInputs

theorem Effect.sameEnvBut (h : Effect i s t) : SameEnvBut s t := by
  cases h with
  | faults => rfl
  | ends => rfl
  | goesOn hwrites => exact hwrites.sameEnvBut

/-- Only a message call and a creation write the environment (45_ethereum_env.md R180 a). -/
theorem Effect.env_eq (h : Effect i s t) (hcall : ¬MessageCall i)
    (hcreate : ¬∃ rd rs rt ru rv, i = .create2 rd rs rt ru rv) : t.env = s.env := by
  cases h with
  | faults => rfl
  | ends => rfl
  | goesOn hwrites =>
    cases hwrites with
    | messageCall h => exact absurd h hcall
    | create h => exact absurd h hcreate
    | _ => rfl

/-- Where the counters go (10_state.md R12). -/
theorem Effect.counters (h : Effect i s t) (hrun : s.runState = .running) :
    (t.runState = .running ∧ t.pc = s.npc) ∨ (t.runState ≠ .running ∧ t.pc = s.pc ∧ t.npc = s.npc) := by
  cases h with
  | faults => exact .inr ⟨nofun, rfl, rfl⟩
  | ends hrunning => exact .inr ⟨hrunning, rfl, rfl⟩
  | goesOn hwrites => exact .inl ⟨hwrites.runState.trans hrun, rfl⟩

/-- An effect that leaves the machine FAULTED is the fault (60_exceptions.md R302). -/
theorem Effect.eq_faultedWith (h : Effect i s t) (hrun : s.runState = .running) {c : Cause}
    (hfaulted : t.runState = .faulted c) : t = s.faultedWith c := by
  cases h with
  | faults c' =>
    cases hfaulted
    rfl
  | ends _ hnot => exact absurd hfaulted (hnot c)
  | goesOn hwrites => exact absurd ((hwrites.runState.trans hrun).symm.trans hfaulted) nofun

/-! Each part of the state is as before unless the opcode is one that may write it. -/

theorem Writes.sameMemory (h : Writes i s u) (hstores : ¬StoresOpcode (tableOpcode i).toNat)
    (hcalls : (tableOpcode i).toNat ∉ [0x97, 0x98, 0x99, 0x9A]) : SameMemory s u := by
  cases h with
  | memory hop => exact absurd hop hstores
  | messageCall hcall => exact absurd hcall.opcode_mem hcalls
  | _ => exact fun _ => rfl

theorem Writes.sameHiLo (h : Writes i s u) (hnot : ¬WritesHiLoOpcode (tableOpcode i).toNat) : SameHiLo s u := by
  cases h with
  | hiLo hop => exact absurd hop hnot
  | _ => exact ⟨rfl, rfl⟩

theorem Writes.callstack_eq (h : Writes i s u) (hnot : ¬WritesCallstackOpcode (tableOpcode i).toNat) :
    u.callstack = s.callstack := by
  cases h with
  | callstack hop => exact absurd hop hnot
  | _ => rfl

theorem Writes.subs_eq (h : Writes i s u) (hnot : (tableOpcode i).toNat ≠ 0xB2) : u.subs = s.subs := by
  cases h with
  | subs hop => exact absurd hop hnot
  | _ => rfl

theorem Writes.log_eq (h : Writes i s u) (hnot : ¬LogsOpcode (tableOpcode i).toNat) : u.log = s.log := by
  cases h with
  | log hop => exact absurd hop hnot
  | _ => rfl

theorem Writes.returndata_eq (h : Writes i s u) (hnot : (tableOpcode i).toNat ∉ [0x97, 0x98, 0x99, 0x9A, 0x9C]) :
    u.returndata = s.returndata := by
  cases h with
  | messageCall hcall => exact absurd (List.mem_append_left [0x9C] hcall.opcode_mem) hnot
  | create hcreate =>
    obtain ⟨rd, rs, rt, ru, rv, rfl⟩ := hcreate
    exact absurd (of_decide_eq_true rfl) hnot
  | _ => rfl

/-! The invariant. -/

theorem Writes.inv (h : Writes i s u) (hinv : s.Inv) : u.Inv := by
  obtain ⟨hcanonical, hinside, hdepth, htopics⟩ := hinv
  cases h with
  | memory _ hm => exact ⟨hm.1 hcanonical, hm.2 hinside, hdepth, htopics⟩
  | messageCall _ _ hm => exact ⟨hm.1 hcanonical, hm.2 hinside, hdepth, htopics⟩
  | callstack _ hstack => exact ⟨hcanonical, hinside, fun n hn => hstack n hn (hdepth n hn), htopics⟩
  | log _ e he =>
    refine ⟨hcanonical, hinside, hdepth, ?_⟩
    rw [State.pushLog_log, List.all_append, htopics]
    simpa using he
  | _ => exact ⟨hcanonical, hinside, hdepth, htopics⟩

theorem State.Inv.faultedWith (hinv : s.Inv) (c : Cause) : (s.faultedWith c).Inv :=
  ⟨hinv.canonical, hinv.inside, hinv.depth, hinv.topics⟩

theorem Effect.inv (h : Effect i s t) (hinv : s.Inv) : t.Inv := by
  cases h with
  | faults c => exact hinv.faultedWith c
  | ends => exact ⟨hinv.canonical, hinv.inside, hinv.depth, hinv.topics⟩
  | goesOn hwrites =>
    obtain ⟨hcanonical, hinside, hdepth, htopics⟩ := hwrites.inv hinv
    exact ⟨hcanonical, hinside, hdepth, htopics⟩

end Frame

/-! ### The statements about every step -/

/-- Settles O47: a fault of the step changes no part of the state that the invariant speaks of. -/
theorem stepKeepsInv : Obligations.StepKeepsInv := by
  unfold Obligations.StepKeepsInv
  intro s t hinv h
  obtain ⟨-, ⟨c, rfl⟩ | ⟨w, i, -, -, heffect⟩⟩ := step_eq_next h
  · exact hinv.faultedWith c
  · exact heffect.inv hinv

/-- Settles O49: only the faults, of the step and of the instruction, leave the machine FAULTED. -/
theorem faultsArePrecise : Obligations.FaultsArePrecise := by
  unfold Obligations.FaultsArePrecise
  intro s t c h hfaulted
  refine ⟨?precise, step_of_not_running (by rw [hfaulted]; nofun)⟩
  case precise =>
    obtain ⟨hrun, ⟨c', rfl⟩ | ⟨w, i, -, -, heffect⟩⟩ := step_eq_next h
    · cases hfaulted
      rfl
    · exact heffect.eq_faultedWith hrun hfaulted

/-- Settles O50: the environment is written by the message calls and CREATE2, which the hypothesis of the last clause
excludes. -/
theorem readOnlyState : Obligations.ReadOnlyState := by
  unfold Obligations.ReadOnlyState
  intro s t h
  obtain ⟨-, ⟨c, rfl⟩ | ⟨w, i, hfetch, hdecode, heffect⟩⟩ := step_eq_next h
  · exact ⟨⟨rfl, rfl, rfl, rfl, rfl⟩, rfl, fun _ => rfl⟩
  · refine ⟨heffect.sameInputs, heffect.sameEnvBut, fun hother => ?_⟩
    obtain ⟨hcall, hcallcode, hdelegatecall, hstaticcall, hcreate⟩ := hother w i hfetch hdecode
    refine heffect.env_eq ?noCall fun ⟨rd, rs, rt, ru, rv, hi⟩ => hcreate rd rs rt ru rv hi
    case noCall =>
      intro hmessage
      cases hmessage with
      | call rd rs => exact hcall rd rs rfl
      | callcode rd rs => exact hcallcode rd rs rfl
      | delegatecall rd rs => exact hdelegatecall rd rs rfl
      | staticcall rd rs => exact hstaticcall rd rs rfl

/-- Settles O51: a fault of the step stays, an effect goes on or stays. -/
theorem countersMove : Obligations.CountersMove := by
  unfold Obligations.CountersMove
  intro s t h
  obtain ⟨hrun, ⟨c, rfl⟩ | ⟨w, i, -, -, heffect⟩⟩ := step_eq_next h
  · exact .inr ⟨nofun, rfl, rfl⟩
  · exact heffect.counters hrun

/-- Settles O52: the opcodes excluded are those of the stores, the copies, the vectors and the message calls. -/
theorem memoryWriters : Obligations.MemoryWriters := by
  unfold Obligations.MemoryWriters
  rintro i s t op h rfl hlisted hrange
  rw [opcodeOf_encode] at hlisted hrange
  cases effect_of_exec h with
  | faults => exact fun _ => rfl
  | ends => exact fun _ => rfl
  | goesOn hwrites =>
    refine hwrites.sameMemory ?stores ?calls
    all_goals
      simp only [StoresOpcode, List.mem_cons, List.not_mem_nil, or_false] at hlisted ⊢
      omega

/-- Settles O53: each clause excludes the opcodes that may write its part. -/
theorem registerAndListWriters : Obligations.RegisterAndListWriters := by
  unfold Obligations.RegisterAndListWriters
  rintro i s t op h rfl
  rw [opcodeOf_encode]
  cases effect_of_exec h with
  | faults => exact ⟨fun _ => ⟨rfl, rfl⟩, fun _ => rfl, fun _ => rfl, fun _ => rfl, fun _ => rfl⟩
  | ends => exact ⟨fun _ => ⟨rfl, rfl⟩, fun _ => rfl, fun _ => rfl, fun _ => rfl, fun _ => rfl⟩
  | goesOn hwrites =>
    exact ⟨hwrites.sameHiLo, hwrites.callstack_eq, hwrites.subs_eq, hwrites.log_eq, hwrites.returndata_eq⟩

/-- Settles O45: the step of a RUNNING machine that fetches an instruction. -/
theorem stepRunsDecoded : Obligations.StepRunsDecoded := by
  unfold Obligations.StepRunsDecoded
  exact fun _ _ _ => step_of_decode

/-- Settles O46: fetch on either side of its alignment check, and the two steps without an instruction. -/
theorem stepWithoutInstruction : Obligations.StepWithoutInstruction := by
  unfold Obligations.StepWithoutInstruction
  exact ⟨fun _ => ⟨fun h => if_pos h, fun h => if_neg h, step_of_fetch_none⟩, fun _ => step_of_not_running⟩

end Sys2Proof.Machine

/-! Launch, the register file, byte order and the code space (10_state.md, 20_memory.md, 70_reset_and_hazards.md). -/

namespace Sys2Proof.Machine

/-! ### The code space (20_memory.md R47) -/

section CodeSpace
variable {s : State} {base : CodeAddr}

/-- Every address of an unbroken program is a multiple of 4. -/
theorem address_mod_four_of_unbrokenFrom (u : unbrokenFrom base s.program = true) (k : Nat) :
    (base.toNat + 4 * k) % 4 = 0 := by
  obtain ⟨hbase, -, -⟩ := (unbrokenFrom_iff base s.program).mp u
  omega

theorem fetch_of_unbrokenFrom (u : unbrokenFrom base s.program = true) (k : Nat) (h : k < s.program.length)
    (hpc : s.pc.toNat = base.toNat + 4 * k) : s.fetch = some s.program[k].2 := by
  have hkey : s.pc.toNat = s.program[k].1 := hpc.trans (unbrokenFrom_getElem u k h).symm
  rw [State.fetch, if_pos (hpc ▸ address_mod_four_of_unbrokenFrom u k), hkey]
  exact Table.lookup_getElem s.program k h (unbrokenFrom_nodup u)

theorem fetch_eq_none_of_unbrokenFrom (u : unbrokenFrom base s.program = true)
    (hpc : ∀ k, k < s.program.length → s.pc.toNat ≠ base.toNat + 4 * k) : s.fetch = none := by
  obtain ⟨-, -, hkeys⟩ := (unbrokenFrom_iff base s.program).mp u
  have habsent : s.pc.toNat ∉ s.program.map (·.1) := by
    rw [hkeys, List.mem_map]
    rintro ⟨k, hk, he⟩
    exact hpc k (List.mem_range.mp hk) he.symm
  rw [State.fetch, Table.lookup_eq_none s.program s.pc.toNat habsent, ite_self]

end CodeSpace

/-- Settles O59: the entries of an unbroken program are at its addresses and no other, and no step writes the
program. -/
theorem fetchDomain : Obligations.FetchDomain := by
  unfold Obligations.FetchDomain
  intro s base u
  refine ⟨fetch_of_unbrokenFrom u, fetch_eq_none_of_unbrokenFrom u, fun t h => ?_⟩
  obtain ⟨⟨-, -, hprogram, -, -⟩, -, -⟩ := readOnlyState s t h
  exact hprogram

/-! ### Byte order (20_memory.md R43) -/

/-- Settles O58: both readings of `BE` agree, and `BE` undoes `bytes_BE`. -/
theorem byteOrder : Obligations.ByteOrder := by
  unfold Obligations.ByteOrder
  intro v n bytes
  refine ⟨length_bytesBE v n, ?_, (bigEndian_eq bytes).symm⟩
  rw [bigEndian_eq, beNat_bytesBE, Nat.pow_mul]

/-! ### The register file (10_state.md R10) -/

theorem setReg_zero_of_zeroReg (s : State) (v : Word) (h : s.params.zeroReg = true) : s.setReg 0 v = s := by
  simp [State.setReg, h]

/-- Settles O56: the rules of the register file, on either value of `ZERO_REG`. -/
theorem registerFile : Obligations.RegisterFile := by
  unfold Obligations.RegisterFile
  intro s r q v
  refine ⟨fun hzero => ?_, fun hr => ?_, State.reg_setReg_of_ne s r q v,
    fun hzero => ⟨s.reg_zero_of_zeroReg hzero, setReg_zero_of_zeroReg s v hzero⟩⟩
  · simp [State.reg_setReg_self, hzero]
  · simp [State.reg_setReg_self, hr]

/-! ### Launch and reset (70_reset_and_hazards.md R331) -/

/-- `MEM0` is put in the canonical form and cut at `MEM_SIZE`; the lists are empty. -/
theorem LaunchRecord.inv_launch (r : LaunchRecord) : r.launch.Inv where
  canonical := Memory.wf_writeCells [] _ r.mem0 rfl
  inside := Memory.writeCells_below [] _ r.mem0 r.params.memSize (fun _ => of_decide_eq_true) rfl
  depth := fun n _ => Nat.zero_le n
  topics := rfl

theorem LaunchRecord.npc_launch (r : LaunchRecord) : r.launch.npc = r.entry + 4 :=
  (BitVec.ofInt_natCast ..).symm.trans (ofInt_add_four r.entry)

/-- Settles O54: each field is the record's or the rule's; registers, memory and the invariant by their lemmas. -/
theorem launchValues : Obligations.LaunchValues := by
  unfold Obligations.LaunchValues
  intro r
  refine ⟨rfl, r.npc_launch, rfl, rfl, rfl, rfl, rfl, rfl, rfl, rfl, rfl, fun k v hv hk => ?register,
    State.reg_zero_of_zeroReg r.launch, fun v hv => ?hi, fun v hv => ?lo, fun c hc => ?compare, fun v hv => ?marker,
    r.byte_launch, r.inv_launch⟩
  case register => rw [r.reg_launch k hk, hv, Option.getD_some]
  case hi => exact congrArg (Option.getD · 0) hv
  case lo => exact congrArg (Option.getD · 0) hv
  case compare => exact congrArg (Option.getD · false) hc
  case marker => exact congrArg (Option.getD · 0) hv

/-- Settles O55: the two states agree field by field; the registers are 64 zeros in both. -/
theorem resetIsLaunch : Obligations.ResetIsLaunch := by
  unfold Obligations.ResetIsLaunch
  refine ⟨?launch, rfl, rfl, rfl, rfl, rfl, rfl, rfl⟩
  case launch => decide

/-- Settles O48: reset is a launch. -/
theorem resetMeetsInv : Obligations.ResetMeetsInv := by
  unfold Obligations.ResetMeetsInv
  rw [resetIsLaunch.1]
  exact LaunchRecord.inv_launch {}

end Sys2Proof.Machine

/-! Proofs and templates (49_mast_covenants.md), a load after a store (43_alu_loadstore.md), and the reads, copies and
calls of the environment (45_ethereum_env.md, 46_ethereum_calls_logs.md). -/

namespace Sys2Proof.Machine

/-! ### An instruction that reads a range and writes a word of it, on either side of the range check -/

theorem exec_load_spec {i : Instr} {s : State} {addr n : Nat} {rd : Reg} {word : List Byte → Word}
    (hexec : exec i s = orRaise (s.memRead addr n) s fun bytes => writeBack rd (word bytes) s) :
    (¬s.Fits addr n → exec i s = .next (s.faultedWith (.memoryFault addr n))) ∧
    (s.Fits addr n → ∃ t : State, exec i s = .next t ∧ WritesReg rd (word (s.bytesAt addr n)) s t) := by
  refine ⟨fun hout => ?outside, fun hfits => exec_writeBack_spec ?inside⟩
  case outside => rw [hexec, memRead_of_not_fits s addr n hout, orRaise_error]
  case inside => rw [hexec, memRead_eq_bytesAt s addr n hfits, orRaise_ok]

/-! ### CHECKPROOF and CHECKTEMPLATE (R280, R281) -/

/-- An opcode that the map gives format P: three registers, two 3-bit fields in slot4, and slot5 and slot6 are 0. -/
theorem decode_slotsPattern_of_formatP (op : BitVec 8) (k : Reg → Reg → Reg → BitVec 3 → BitVec 3 → Instr)
    (rd rs rt : Reg) (n index : BitVec 3) (hop : ∀ w, decodeOpcode op w = formatP w k) :
    decode (slotsPattern op.toNat rd rs rt (n.toNat * 8 + index.toNat) 0 0) = .ok (k rd rs rt n index) := by
  have hslot : n.toNat * 8 + index.toNat = (n ++ index).toNat := (toNat_append_eq_add n index).symm
  have hpack : slotsPattern op.toNat rd rs rt (n ++ index).toNat 0 0 =
      pack op (slotOf rd) (slotOf rs) (slotOf rt) (n ++ index) 0#6 0#6 :=
    slotsPattern_eq_pack op (slotOf rd) (slotOf rs) (slotOf rt) (n ++ index) 0 0
  rw [hslot, hpack, decode, opcodeOf_pack, hop, formatP_pack]

/-- An opcode that the map gives format T: three registers and an 18-bit immediate fill the pattern. -/
theorem decode_imm18Pattern_of_formatT (op : BitVec 8) (k : Reg → Reg → Reg → BitVec 18 → Instr) (rd rs rt : Reg)
    (imm : BitVec 18) (hop : ∀ w, decodeOpcode op w = formatT w k) :
    decode (imm18Pattern op.toNat rd rs rt imm) = .ok (k rd rs rt imm) := by
  have hpack : imm18Pattern op.toNat rd rs rt imm = packImm18 op (slotOf rd) (slotOf rs) (slotOf rt) imm :=
    imm18Pattern_eq_packImm18 op (slotOf rd) (slotOf rs) (slotOf rt) imm
  rw [hpack, decode, opcodeOf_packImm18, hop, formatT_packImm18]

/-- The conjunction of two words is zero exactly when they have no 1 bit in common. -/
theorem and_beq_zero_iff (a b : Word) :
    (a &&& b == 0) = true ↔ ∀ k, k < 256 → ¬(a.getLsbD k = true ∧ b.getLsbD k = true) := by
  rw [beq_iff_eq]
  constructor
  · intro h k _ hk
    have hbit := congrArg (BitVec.getLsbD · k) h
    simp [hk] at hbit
  · intro h
    refine BitVec.eq_of_getLsbD_eq fun k hk => ?_
    simpa using h k hk

/-- Settles O39: CHECKPROOF is a read of the hashes, with no byte to read where `n` is 0; CHECKTEMPLATE writes the
truth value of a conjunction. -/
theorem checkProofAndTemplate : Obligations.CheckProofAndTemplate := by
  unfold Obligations.CheckProofAndTemplate
  refine ⟨?proof, ?template⟩
  case proof =>
    rintro s rd rs rt n index _ rfl
    exact ⟨decode_slotsPattern_of_formatP 0xCD .checkproof rd rs rt n index fun _ => rfl,
      exec_load_spec (i := .checkproof rd rs rt n index) rfl⟩
  case template =>
    intro s rd rs rt imm
    obtain ⟨t, v, hnext, heffect, hone, hzero⟩ := exec_writeBack_spec_of_oneIf (i := .checktemplate rd rs rt imm)
      (rd := rd) rfl (and_beq_zero_iff (s.reg rs) (s.reg rt))
    exact ⟨decode_imm18Pattern_of_formatT 0xCE .checktemplate rd rs rt imm fun _ => rfl,
      t, v, hnext, heffect, hone, fun ⟨k, hk, hcommon⟩ => hzero fun hnone => hnone k hk hcommon⟩

/-! ### A load after a store (20_memory.md R43) -/

/-- The range that was written reads back as the bytes written. -/
theorem WritesMemory.bytesAt_eq {addr : Nat} {bytes : List Byte} {s t : State} (h : WritesMemory addr bytes s t) :
    t.bytesAt addr bytes.length = bytes := by
  apply List.ext_getElem
  · simp [State.bytesAt]
  · intro k hk hbytes
    simpa [State.bytesAt] using h.stored k hbytes

/-- The last byte of a big-endian number is its least significant. -/
theorem toNat_getLast_eq_bigEndian_mod (bytes : List Byte) (h : bytes ≠ []) :
    (bytes.getLast h).toNat = bigEndian bytes % 256 := by
  have hlast := (bytes.getLast h).isLt
  conv_rhs => rw [← List.dropLast_append_getLast h, bigEndian, List.foldl_append]
  simp only [List.foldl_cons, List.foldl_nil]
  omega

/-- Settles O14: the word load reads the 32 stored bytes back, and the byte load the last of them. -/
theorem loadAfterStore : Obligations.LoadAfterStore := by
  unfold Obligations.LoadAfterStore
  intro s rd rs rt rb off last hfit hlast
  obtain ⟨-, -, -, -, -, -, hstore⟩ := stores s rs rt off
  obtain ⟨t, bytes, hnext, hlength, hvalue, heffect⟩ := hstore hfit
  obtain ⟨-, -, -, -, hparams⟩ := heffect.inputs
  refine ⟨t, hnext, ?word, ?byte⟩
  case word =>
    obtain ⟨-, -, -, -, -, -, hload⟩ := loads t rd rs off
    rw [heffect.regs rs, hparams] at hload
    obtain ⟨u, v, hnext', hwrites, hv⟩ := hload hfit
    have hword : v = s.reg rt := by
      apply BitVec.eq_of_toNat_eq
      rw [hv, State.numberAt, ← hlength, heffect.bytesAt_eq, hvalue]
    exact ⟨u, hnext', hword ▸ hwrites.result⟩
  case byte =>
    obtain ⟨-, -, -, -, hload, -, -⟩ := loads t rd rb last
    rw [heffect.regs rb, hparams, hlast] at hload
    obtain ⟨u, v, hnext', hwrites, hv⟩ := hload (by omega)
    have hnonempty : bytes ≠ [] := List.ne_nil_of_length_pos (by omega)
    have hbyte : t.byte (effectiveAddress (s.reg rs) off + 31) = (s.reg rt).setWidth 8 := by
      apply BitVec.eq_of_toNat_eq
      rw [heffect.stored 31 (by omega), BitVec.toNat_setWidth, ← hvalue,
        ← toNat_getLast_eq_bigEndian_mod bytes hnonempty, List.getLast_eq_getElem]
      simp only [hlength]
    exact ⟨u, v, hnext', hwrites.result, by rw [hv, hbyte]⟩

/-! ### Reads of the environment (R184 to R202) -/

/-- Settles O20: each of the six rows ends in the write of the word it looks up. -/
theorem environmentLookups : Obligations.EnvironmentLookups := by
  unfold Obligations.EnvironmentLookups
  intro s rd rs w i v hrow
  simp only [List.mem_cons, List.not_mem_nil, or_false, Prod.mk.injEq] at hrow
  obtain ⟨rfl, rfl, rfl⟩ | ⟨rfl, rfl, rfl⟩ | ⟨rfl, rfl, rfl⟩ | ⟨rfl, rfl, rfl⟩ | ⟨rfl, rfl, rfl⟩ |
    ⟨rfl, rfl, rfl⟩ := hrow
  · exact ⟨decode_slotsPattern_of_formatR2 0x81 .balance rd rs fun _ => rfl, exec_writeBack_spec rfl⟩
  · exact decode_and_exec_of_formatR1_writeBack 0x8D .calldatasize (fun _ => rfl) rfl
  · exact decode_and_exec_of_formatR1_writeBack 0x90 .codesize (fun _ => rfl) rfl
  · exact ⟨decode_slotsPattern_of_formatR2 0x92 .extcodesize rd rs fun _ => rfl, exec_writeBack_spec rfl⟩
  · exact ⟨decode_slotsPattern_of_formatR2 0x93 .extcodehash rd rs fun _ => rfl, exec_writeBack_spec rfl⟩
  · exact decode_and_exec_of_formatR1_writeBack 0x95 .returndatasize (fun _ => rfl) rfl

theorem beNat_bytesAt (s : State) (addr n : Nat) : beNat (s.bytesAt addr n) = s.numberAt addr n :=
  (bigEndian_eq _).symm

/-- A word holds the number in 32 bytes without cutting it off. -/
theorem toNat_ofNat_beNat {bytes : List Byte} (h : bytes.length = 32) :
    (BitVec.ofNat 256 (beNat bytes)).toNat = bigEndian bytes := by
  have hlt := beNat_lt bytes
  rw [h] at hlt
  rw [bigEndian_eq, BitVec.toNat_ofNat]
  exact Nat.mod_eq_of_lt hlt

/-- Settles O21: BLOCKHASH is a load of 8 bytes, whose number is the key; CALLDATALOAD reads a byte string. -/
theorem blockHashAndCallDataLoad : Obligations.BlockHashAndCallDataLoad := by
  unfold Obligations.BlockHashAndCallDataLoad
  refine ⟨?blockhash, ?calldataload⟩
  case blockhash =>
    intro s rd rs
    refine ⟨decode_slotsPattern_of_formatR2 0x86 .blockhash rd rs fun _ => rfl,
      exec_memRead_past_end rfl (by norm_num), fun hfit => ?inside⟩
    case inside =>
      rw [← beNat_bytesAt]
      exact exec_load_inside (i := .blockhash rd rs) rfl hfit
  case calldataload =>
    intro s rd rs
    have hexec : exec (.calldataload rd rs) s = orRaise (stringRead s.env.calldata (s.reg rs).toNat 32) s
      fun bytes => writeBack rd (BitVec.ofNat 256 (beNat bytes)) s := rfl
    refine ⟨decode_slotsPattern_of_formatR2 0x8E .calldataload rd rs fun _ => rfl, fun hend => ?past,
      fun hfit => ?inside⟩
    case past => rw [hexec, stringRead_of_lt _ _ _ (by norm_num) hend, orRaise_error]
    case inside =>
      rw [stringRead_of_le _ _ _ (.inr hfit), orRaise_ok] at hexec
      obtain ⟨t, hnext, heffect⟩ := exec_writeBack_spec hexec
      exact ⟨t, _, hnext, heffect, toNat_ofNat_beNat (length_take_drop _ _ _ (.inr hfit))⟩

/-! ### The copies (R180 c) -/

/-- An instruction that copies from a byte string to memory: EnvRangeFault, then MemoryFault, else the bytes. -/
theorem exec_copyToMemory_spec {i : Instr} {s : State} {bytes : List Byte} {d o n : Nat}
    (hexec : exec i s = copyToMemory bytes d o n s) :
    (0 < n → bytes.length < o + n → exec i s = .next (s.faultedWith (.envRangeFault o n))) ∧
    (0 < n → o + n ≤ bytes.length → s.params.memSize < d + n →
      exec i s = .next (s.faultedWith (.memoryFault d n))) ∧
    ((n = 0 ∨ (o + n ≤ bytes.length ∧ d + n ≤ s.params.memSize)) →
      ∃ (t : State) (copied : List Byte), exec i s = .next t ∧ copied.length = n ∧
        (∀ k, k < n → copied[k]? = bytes[o + k]?) ∧ WritesMemory d copied s t) := by
  refine ⟨fun hn hend => hexec.trans (copyToMemory_past_string bytes d o n s hn hend), fun hn hstring hend => ?past,
    fun hfit => ?inside⟩
  case past =>
    have hlength := length_take_drop bytes o n (.inr hstring)
    exact exec_store_past_end (hexec.trans (copyToMemory_in_string bytes d o n s (.inr hstring))) hlength hn hend
  case inside =>
    have hstring : n = 0 ∨ o + n ≤ bytes.length := hfit.imp_right And.left
    have hlength := length_take_drop bytes o n hstring
    have hfits : s.Fits d ((bytes.drop o).take n).length := hlength.symm ▸ hfit.imp_right And.right
    refine ⟨_, _, hexec.trans ((copyToMemory_in_string bytes d o n s hstring).trans (store_of_fits _ _ s hfits)),
      hlength, fun k hk => ?_, writesMemory_writeBytes s d _⟩
    rw [List.getElem?_take_of_lt hk, List.getElem?_drop]

/-- Settles O22: each of the four rows is a copy of its own byte string. -/
theorem copiesToMemory : Obligations.CopiesToMemory := by
  unfold Obligations.CopiesToMemory
  rintro s rd rs rt ru w i bytes _ _ _ rfl rfl rfl hrow
  simp only [List.mem_cons, List.not_mem_nil, or_false, Prod.mk.injEq] at hrow
  obtain ⟨rfl, rfl, rfl⟩ | ⟨rfl, rfl, rfl⟩ | ⟨rfl, rfl, rfl⟩ | ⟨rfl, rfl, rfl⟩ := hrow
  · exact ⟨decode_slotsPattern_of_formatR3 0x8F .calldatacopy rd rs rt fun _ => rfl, exec_copyToMemory_spec rfl⟩
  · exact ⟨decode_slotsPattern_of_formatR3 0x91 .codecopy rd rs rt fun _ => rfl, exec_copyToMemory_spec rfl⟩
  · exact ⟨decode_slotsPattern_of_formatR4 0x94 .extcodecopy rd rs rt ru fun _ => rfl, exec_copyToMemory_spec rfl⟩
  · exact ⟨decode_slotsPattern_of_formatR3 0x96 .returndatacopy rd rs rt fun _ => rfl, exec_copyToMemory_spec rfl⟩

/-! ### The oracles' answers (46_ethereum_calls_logs.md R210) -/

/-- What a call and a creation write besides memory: `rd`, the return data, the gas and the balances of the answer. -/
structure WritesAnswer (rd : Reg) (v : Word) (returndata : List Byte) (gas : Word) (balance : Table Word)
    (s t : State) : Prop where
  result : Holds rd v s t
  regs : SameRegsBut rd s t
  hiLo : SameHiLo s t
  returndata : t.returndata = returndata
  gas : t.env.gas = gas
  balance : t.env.balance = balance
  envBut : SameEnvBut s t
  callstack : t.callstack = s.callstack
  subs : t.subs = s.subs
  log : t.log = s.log
  inputs : SameInputs s t
  counters : Sequential s t

theorem writesAnswer_of_mem (rd : Reg) (v : Word) (m : Memory) (returndata : List Byte) (gas : Word)
    (balance : Table Word) (s : State) :
    WritesAnswer rd v returndata gas balance s
      (((State.setWorld (State.setReturndata { s with mem := m } returndata) gas balance).consulted).setReg rd
        v).advance where
  result := holds_setReg (State.consulted _) rd v
  regs := fun r hr => State.reg_setReg_of_ne (State.consulted _) rd r v hr
  hiLo := ⟨rfl, rfl⟩
  returndata := rfl
  gas := rfl
  balance := rfl
  envBut := rfl
  callstack := rfl
  subs := rfl
  log := rfl
  inputs := ⟨rfl, rfl, rfl, rfl, rfl⟩
  counters := ⟨rfl, rfl, ofInt_add_four s.npc⟩

/-- A call that passes its checks: the answer, and its bytes at the addresses it may write. -/
theorem exec_finishCall_spec {i : Instr} {s : State} {rd : Reg} {allowed : Nat → Bool} {ans : CallAnswer}
    (hexec : exec i s = finishCall rd allowed ans s) :
    ∃ t : State, exec i s = .next t ∧
      WritesAnswer rd (if ans.ok = true then 1 else 0) ans.returndata ans.gas ans.balance s t ∧
      (∀ a, allowed a = true → t.byte a = (ans.writes.reverse.lookup a).getD (s.byte a)) ∧
      (∀ a, allowed a = false → t.byte a = s.byte a) := by
  have hbyte := finishCall_byte rd allowed ans s _ rfl
  exact ⟨_, hexec, writesAnswer_of_mem rd _ _ _ _ _ s, fun a ha => (hbyte a).trans (if_pos ha),
    fun a ha => (hbyte a).trans (if_neg (Bool.eq_false_iff.mp ha))⟩

/-- The argument block at an address of memory (R211). -/
def State.callBlockAt (s : State) (p : Nat) : CallBlock :=
  ⟨s.numberAt p 32, s.numberAt (p + 32) 32, s.numberAt (p + 64) 32, s.numberAt (p + 96) 32,
    s.numberAt (p + 128) 32, s.numberAt (p + 160) 32, s.numberAt (p + 192) 32⟩

section CallChecks
variable (kind : CallKind) (rd rs : Reg) (s : State)

theorem messageCall_of_block_outside (h : ¬s.Fits (s.reg rs).toNat 224) :
    messageCall kind rd rs s = .next (s.faultedWith (.memoryFault (s.reg rs).toNat 224)) := by
  rw [messageCall, memRead_of_not_fits _ _ _ h, orRaise_error]

theorem messageCall_of_block (h : s.Fits (s.reg rs).toNat 224) {b : CallBlock}
    (hb : b = s.callBlockAt (s.reg rs).toNat) :
    messageCall kind rd rs s =
      orRaise (s.memRead b.inOffset b.inSize) s fun _ =>
        if s.inMemory b.outOffset b.outSize then finishCall rd b.inOutput (s.askCall kind (s.reg rs)) s
        else raise (.memoryFault b.outOffset b.outSize) s := by
  rw [messageCall, memRead_of_fits _ _ _ h, orRaise_ok, callBlock_readBytes, hb, State.callBlockAt]

end CallChecks

/-- A message call: the faults of the block, of the input range and of the output range, in this order, or the
answer. -/
theorem exec_messageCall_spec {i : Instr} {s : State} {kind : CallKind} {rd rs : Reg} {b : CallBlock}
    (hexec : exec i s = messageCall kind rd rs s) (hb : b = s.callBlockAt (s.reg rs).toNat) :
    (¬s.Fits (s.reg rs).toNat 224 →
      exec i s = .next (s.faultedWith (.memoryFault (s.reg rs).toNat 224))) ∧
    (s.Fits (s.reg rs).toNat 224 → ¬s.Fits b.inOffset b.inSize →
      exec i s = .next (s.faultedWith (.memoryFault b.inOffset b.inSize))) ∧
    (s.Fits (s.reg rs).toNat 224 → s.Fits b.inOffset b.inSize → ¬s.Fits b.outOffset b.outSize →
      exec i s = .next (s.faultedWith (.memoryFault b.outOffset b.outSize))) ∧
    (s.Fits (s.reg rs).toNat 224 → s.Fits b.inOffset b.inSize → s.Fits b.outOffset b.outSize →
      exec i s = finishCall rd b.inOutput (s.askCall kind (s.reg rs)) s) := by
  refine ⟨fun hblock => ?_, fun hblock hin => ?_, fun hblock hin hout => ?_, fun hblock hin hout => ?_⟩
  · rw [hexec, messageCall_of_block_outside kind rd rs s hblock]
  · rw [hexec, messageCall_of_block kind rd rs s hblock hb, memRead_of_not_fits _ _ _ hin, orRaise_error]
  · rw [hexec, messageCall_of_block kind rd rs s hblock hb, memRead_of_fits _ _ _ hin, orRaise_ok,
      if_neg (mt (inMemory_iff _ _ _).mp hout), raise_eq]
  · rw [hexec, messageCall_of_block kind rd rs s hblock hb, memRead_of_fits _ _ _ hin, orRaise_ok,
      if_pos ((inMemory_iff _ _ _).mpr hout)]

theorem inOutput_iff (b : CallBlock) (a : Nat) :
    b.inOutput a = true ↔ b.outOffset ≤ a ∧ a < b.outOffset + b.outSize := by
  simp [CallBlock.inOutput]

/-- Settles O23: both rows are a message call of their own kind; the answer's bytes go to the output range. -/
theorem messageCalls : Obligations.MessageCalls := by
  unfold Obligations.MessageCalls
  rintro s rd rs op i kind _ p inOff inSize outOff outSize hrow rfl rfl hinOff hinSize houtOff houtSize
  obtain ⟨b, hb⟩ : ∃ b, b = s.callBlockAt (s.reg rs).toNat := ⟨_, rfl⟩
  obtain ⟨rfl, rfl, rfl, rfl⟩ :
      inOff = b.inOffset ∧ inSize = b.inSize ∧ outOff = b.outOffset ∧ outSize = b.outSize := by
    rw [hb]
    exact ⟨hinOff, hinSize, houtOff, houtSize⟩
  have hdecodeExec : decode (slotsPattern op rd rs 0 0 0 0) = .ok i ∧ exec i s = messageCall kind rd rs s := by
    simp only [List.mem_cons, List.not_mem_nil, or_false, Prod.mk.injEq] at hrow
    obtain ⟨rfl, rfl, rfl⟩ | ⟨rfl, rfl, rfl⟩ := hrow
    · exact ⟨decode_slotsPattern_of_formatR2 0x97 .call rd rs fun _ => rfl, rfl⟩
    · exact ⟨decode_slotsPattern_of_formatR2 0x98 .callcode rd rs fun _ => rfl, rfl⟩
  obtain ⟨hdecode, hexec⟩ := hdecodeExec
  obtain ⟨hblockFault, hinFault, houtFault, hanswer⟩ := exec_messageCall_spec hexec hb
  refine ⟨hdecode, fun hend => hblockFault ((s.not_fits_iff _ _).mpr ⟨by norm_num, hend⟩),
    fun hblock => hinFault (.inr hblock), fun hblock => houtFault (.inr hblock), fun hblock hin hout => ?answer⟩
  case answer =>
    obtain ⟨t, hnext, heffect, hinside, houtside⟩ := exec_finishCall_spec (hanswer (.inr hblock) hin hout)
    have hframe : SameMemoryOutside b.outOffset b.outSize s t := fun a ha =>
      houtside a (Bool.eq_false_iff.mpr fun h => by rw [inOutput_iff] at h; omega)
    exact ⟨t, hnext, heffect.result, heffect.regs, heffect.hiLo, hframe,
      fun a hlow hhigh => hinside a ((inOutput_iff b a).mpr ⟨hlow, hhigh⟩),
      heffect.returndata, heffect.gas, heffect.balance, heffect.envBut, heffect.callstack, heffect.subs, heffect.log,
      heffect.inputs, heffect.counters⟩

/-- Settles O24: both rows are a call with no checks, which may write every address of memory. -/
theorem openCalls : Obligations.OpenCalls := by
  unfold Obligations.OpenCalls
  rintro s rd rs op i kind _ hrow rfl
  have hdecodeExec : decode (slotsPattern op rd rs 0 0 0 0) = .ok i ∧ exec i s = openCall kind rd rs s := by
    simp only [List.mem_cons, List.not_mem_nil, or_false, Prod.mk.injEq] at hrow
    obtain ⟨rfl, rfl, rfl⟩ | ⟨rfl, rfl, rfl⟩ := hrow
    · exact ⟨decode_slotsPattern_of_formatR2 0x99 .delegatecall rd rs fun _ => rfl, rfl⟩
    · exact ⟨decode_slotsPattern_of_formatR2 0x9A .staticcall rd rs fun _ => rfl, rfl⟩
  obtain ⟨hdecode, hexec⟩ := hdecodeExec
  obtain ⟨t, hnext, heffect, hinside, houtside⟩ := exec_finishCall_spec hexec
  exact ⟨hdecode, t, hnext, heffect.result, heffect.regs, heffect.hiLo,
    fun a ha => hinside a (decide_eq_true ha), fun a ha => houtside a (decide_eq_false (Nat.not_lt.mpr ha)),
    heffect.returndata, heffect.gas, heffect.balance, heffect.envBut, heffect.callstack, heffect.subs, heffect.log,
    heffect.inputs, heffect.counters⟩

/-- A creation: the answer, with memory as it is. -/
theorem exec_finishCreate_spec {i : Instr} {s : State} {rd : Reg} {ans : CreateAnswer}
    (hexec : exec i s = finishCreate rd ans s) :
    ∃ t : State, exec i s = .next t ∧
      WritesAnswer rd ans.result ans.returndata ans.gas ans.balance s t ∧ SameMemory s t :=
  ⟨_, hexec, writesAnswer_of_mem rd _ s.mem _ _ _ s, fun _ => rfl⟩

/-- Settles O25: CREATE2 has no checks and ends in the create oracle's answer. -/
theorem create2 : Obligations.Create2 := by
  unfold Obligations.Create2
  rintro s rd rs rt ru rv ans rfl
  obtain ⟨t, hnext, heffect, hmemory⟩ := exec_finishCreate_spec (i := .create2 rd rs rt ru rv) rfl
  exact ⟨decode_slotsPattern_of_formatR5 0x9C .create2 rd rs rt ru rv fun _ => rfl, t, hnext, heffect.result,
    heffect.regs, heffect.hiLo, hmemory, heffect.returndata, heffect.gas, heffect.balance, heffect.envBut,
    heffect.callstack, heffect.subs, heffect.log, heffect.inputs, heffect.counters⟩

end Sys2Proof.Machine
